-- ==== Sys2Proof/Word.lean ====
section
/-! DEFINITION. The byte type of memory and frames. -/

namespace Sys2Proof

/-- One byte (Host.Cell holds the same type). -/
abbrev Byte := BitVec 8

end Sys2Proof
end

