-- ==== Sys2Proof/Syntax.lean ====
section
/-! DEFINITION. The commands the block takes, and the operands they carry. -/

namespace Sys2Proof

/-- The path on which an access reaches the dictionary core ("Access paths and their order"):
a BAP request of a source node, from a MAC address, `auth` when it travels in an authenticated
session (R40, R42); the PCIe window of a function (R45); the control firmware. -/
inductive Path where
  | bap (node mac : Nat) (auth : Bool)
  | pcie (fn : Fin 64)
  | fw
  deriving DecidableEq, Repr

/-- A write of one object as it reaches the dictionary core: its path, the type code and the size
in bytes it presents (R24, R25), and its value. -/
structure WReq where
  via : Path
  ty : Nat
  size : Nat
  val : Nat
  deriving DecidableEq, Repr

/-- A received Ethernet frame of EtherType 0x88B5 (R33): MAC addresses and the bytes after the EtherType. -/
structure BapFrame where
  dstMac : Nat
  srcMac : Nat
  bytes : List Byte
  deriving DecidableEq, Repr

/-- A job: its queue and its submission number modulo 2^16 (R141). -/
structure JobId where
  q : Fin 128
  n : BitVec 16
  deriving DecidableEq, Repr

/-- Storage arrays in which an error can strike (R112 to R114). -/
inductive MemArray where
  | dram | millpond
  deriving DecidableEq, Repr

/-- What happens in the storage cells or on the DRAM data link while a command runs. -/
inductive UpsetKind where
  | corrected | uncorrectable | link
  deriving DecidableEq, Repr

/-- One error, at a device address or a physical Millpond offset. -/
structure Upset where
  arr : MemArray
  kind : UpsetKind
  addr : Nat
  deriving DecidableEq, Repr

/-- The course that one run of a job's command takes: `cut` is the number of pre-emption points (R184) after which the run
stops, none where it goes on to the command's end (log entry 53); `upsets` are the bit errors that strike. -/
structure Course where
  cut : Option Nat
  upsets : List Upset
  deriving DecidableEq, Repr

/-- The pipe whose band begins or is due, and the values that writes give its pose flag while the device reads it (R307,
log entry 20). -/
structure LatchIn where
  pipe : Fin 4
  moved : List (BitVec 32)
  deriving DecidableEq, Repr

/-- What the board presents at T_B: the CFG levels (R67), REFCLK as the internal oscillator measures it
in kHz (R72), whether supplies and straps kept their timing and REFCLK was running in time (R67, R85), and whether
REFCLK lies within ±100 ppm (R85). -/
structure Board where
  cfg : BitVec 13
  measuredKHz : Nat
  timely : Bool
  within100ppm : Bool
  deriving DecidableEq, Repr

/-- What the outside shows to a long operation that completes: whether a QSPI NOR responds (R60); HPD and
the receiver capabilities of a DP sink and the candidates (lanes, Mb/s) that train (R315); the failing cells
of a self-test (R379, R381). -/
structure OpResult where
  norResponds : Bool
  hpd : Bool
  sinkLanes : Nat
  sinkRate : Nat
  trains : List (Nat × Nat)
  mpFail : BitVec 32
  dramFail : BitVec 8
  firstAddr : Nat
  deriving DecidableEq, Repr

/-- State of a CSI-2 packet header after its ECC check (R162). -/
inductive HeaderEcc where
  | good | corrected | uncorrectable
  deriving DecidableEq, Repr

/-- A CSI-2 packet header: virtual channel, data type, ECC outcome. -/
structure CsiHeader where
  vc : Fin 4
  dtype : BitVec 6
  ecc : HeaderEcc
  deriving DecidableEq, Repr

/-- What a CSI-2 receiver finds on its lanes (R168). -/
inductive CsiLanes where
  | stop | receiving | error
  deriving DecidableEq, Repr

/-- Scheduling units (R169), each neural quarter its own. -/
inductive SchedUnit where
  | raster | nq (q : Fin 4) | dibber | vision | solver | display | copy | control
  deriving DecidableEq, Repr

/-- What a panel or sink answers to a LINK_XFER (R323): result 0 ACK, 1 NAK, 2 DEFER retries exhausted,
3 timeout, and the bytes returned. -/
structure LinkReply where
  result : Fin 4
  bytes : List Byte
  deriving DecidableEq, Repr

/-- What the tester does around one TAP instruction: the value shifted into the selected data register
before Update-DR, the levels captured at the balls by the boundary cells, and what the board presents
should the Update-IR count as T_B (R372). -/
structure TapIn where
  shiftIn : Nat
  balls : Nat
  board : Board
  deriving DecidableEq, Repr

/-- The commands: one constructor per row of spec/opcode_table.json. `dt` is the time in ns since the
command before (log entry 1). -/
inductive Instr where
  /-- `TICK_IN_EDGE`: A rising edge on TICK_IN is detected after glitch filtering and judged as a tick, a runt or an ignored edge (R74). Operands: `high`: length of the high pulse in ns; `latency`: ns from the edge to its detection. -/
  | tickInEdge (dt : Nat) (high : Nat) (latency : Nat)
  /-- `INTERNAL_TICK`: The internal generator period GEN_PERIOD_NS expires and produces a tick (R10). -/
  | internalTick (dt : Nat)
  /-- `SUBSTITUTED_TICK`: The substitution timeout expires with no source edge and the device delivers a substituted tick (R18). -/
  | substitutedTick (dt : Nat)
  /-- `BUCKET_START`: The next bucket of the running tick begins, as timed from the predicted period (R7). -/
  | bucketStart (dt : Nat)
  /-- `TICK_OUT_FALL`: TICK_OUT falls 4 us after the tick that raised it (R75). -/
  | tickOutFall (dt : Nat)
  /-- `TICK_EN_WRITE`: A write to TICK_EN starts ticks, or stops them and releases pending source, period and frequency changes, or is refused with BUSY (R16). -/
  | tickEnWrite (dt : Nat) (w : WReq)
  /-- `TICK_SRC_WRITE`: A write to TICK_SRC selects the tick source at the next switch-over tick, or at once while ticks are stopped (R19). -/
  | tickSrcWrite (dt : Nat) (w : WReq)
  /-- `GEN_PERIOD_NS_WRITE`: A write to GEN_PERIOD_NS changes the generator period at the next switch-over tick, or at once while ticks are stopped (R19). -/
  | genPeriodNsWrite (dt : Nat) (w : WReq)
  /-- `READ`: A BAP READ request returns the value and type of an object after the dictionary checks (R35). -/
  | read (dt : Nat) (f : BapFrame)
  /-- `WRITE`: A BAP WRITE request writes an object under session, type, range and lock checks, and returns a handle for a command object (R35). -/
  | write (dt : Nat) (f : BapFrame)
  /-- `BLOCK_WRITE`: A BAP BLOCK_WRITE segment extends an in-order transfer of a DOM object, which takes its new content when TOTAL is reached (R38). -/
  | blockWrite (dt : Nat) (f : BapFrame)
  /-- `BLOCK_READ`: A BAP BLOCK_READ returns up to COUNT bytes of a DOM object from OFFSET (R39). -/
  | blockRead (dt : Nat) (f : BapFrame)
  /-- `SESSION_OPEN`: A SESSION_OPEN exchanges nonces, derives the session key and closes the node's previous or the idlest session (R41). -/
  | sessionOpen (dt : Nat) (f : BapFrame)
  /-- `SESSION_CLOSE`: A SESSION_CLOSE ends the requesting node's authenticated session (R43). -/
  | sessionClose (dt : Nat) (f : BapFrame)
  /-- `DISCOVER`: A DISCOVER request is answered with DEVICE_ID, STEPPING and NODE_ID, at once or after the broadcast delay (R35). -/
  | discover (dt : Nat) (f : BapFrame)
  /-- `DISCOVER_DELAY_EXPIRY`: The delay of 2 ms times NODE_ID after a broadcast DISCOVER expires and the device sends its answer (R35). -/
  | discoverDelayExpiry (dt : Nat) (node : Nat)
  /-- `BLOCK_TRANSFER_TIMEOUT`: A DOM block transfer with no segment for 1 s is abandoned (R38). Operands: the DOM object whose transfer has had no segment. -/
  | blockTransferTimeout (dt : Nat) (idx sub : Nat)
  /-- `SESSION_IDLE_EXPIRY`: A session without a valid frame for SESSION_IDLE_MS ends (R43). -/
  | sessionIdleExpiry (dt : Nat) (node : Nat)
  /-- `NODE_ID_WRITE`: A write to NODE_ID is answered under the old ID, then takes effect and ends every session (R62). -/
  | nodeIdWrite (dt : Nat) (w : WReq)
  /-- `DA_READ`: A GO write to DA_CTRL with bit 8 clear reads the object named in DA_ADDR through the PCIe access block (R46). Operands: the access block's DA_ADDR, type code, DA_OFFSET and DA_LEN at the GO. -/
  | daRead (dt : Nat) (fn : Fin 64) (addr ty offset len : Nat)
  /-- `DA_WRITE`: A GO write to DA_CTRL with bit 8 set writes the object named in DA_ADDR through the PCIe access block (R46). Operands: the access block's DA_ADDR, type code, DA_DATA_LO, DA_DATA_HI, DA_OFFSET, DA_LEN and DA_BUF at the GO. -/
  | daWrite (dt : Nat) (fn : Fin 64) (addr ty lo hi offset len : Nat) (buf : List Byte)
  /-- `DIRECT_PAGE_WRITE`: A 32- or 64-bit write to a mapped direct page writes an object, U64 objects taking effect with the upper word, refusals dropped and recorded (R47). Operands: a 32- or 64-bit (`wide`) write at a BAR0 offset. -/
  | directPageWrite (dt : Nat) (fn : Fin 64) (off : Nat) (wide : Bool) (val : Nat)
  /-- `DIRECT_PAGE_READ`: A read of a direct page returns an object value, latching the upper U64 half and clearing RC objects, refusals reading 0 (R47). Operands: a 32- or 64-bit read at a BAR0 offset. -/
  | directPageRead (dt : Nat) (fn : Fin 64) (off : Nat) (wide : Bool)
  /-- `DICT_WRITE`: A write to an object that has no row of its own takes effect under the checks of the dictionary core (R26). -/
  | dictWrite (dt : Nat) (idx sub : Nat) (w : WReq)
  /-- `RELEASE`: A write of a handle to RELEASE frees a DONE handle-table slot, or is refused (R384). -/
  | release (dt : Nat) (slot : Fin 256) (w : WReq)
  /-- `STORE`: A write of 0x5A7E to STORE starts a long operation that saves the configuration to QSPI NOR (R60). -/
  | store (dt : Nat) (w : WReq)
  /-- `ERASE`: A write of 0x0DEF to ERASE starts a long operation that erases the stored configuration (R60). -/
  | erase (dt : Nat) (w : WReq)
  /-- `LONG_OPERATION_DONE`: A long operation completes: RESULT, DONE_TS and STATE are written, a NOTIFY is sent and MSI-X vector 0 raised (R53). -/
  | longOperationDone (dt : Nat) (slot : Fin 256) (r : OpResult)
  /-- `PORST_N_FALL`: PORST_N goes low and the device enters power-on reset (R105). -/
  | porstNFall (dt : Nat)
  /-- `PORST_N_RISE`: PORST_N rises at T_B: straps are latched, REFCLK is checked and boot begins (R67). -/
  | porstNRise (dt : Nat) (b : Board)
  /-- `SUPPLY_LOSS`: Supplies fall without PORST_N low first, DRAM content is lost and the next power-up is a power-on reset (R86). -/
  | supplyLoss (dt : Nat)
  /-- `WRST_N_FALL`: WRST_N low for at least 1 us starts a warm reset that holds while it stays low (R106). -/
  | wrstNFall (dt : Nat)
  /-- `WRST_N_RISE`: WRST_N rises and the device boots from step 4 with the retained memory training (R106). -/
  | wrstNRise (dt : Nat)
  /-- `WARM_RESET`: A write of 0x7A3C to WARM_RESET is answered and then starts a warm reset and reboot (R106). -/
  | warmReset (dt : Nat) (w : WReq)
  /-- `BOOT_ROM_START`: The control PLL locks and the boot ROM runs, trains memory and acts on the boot source (R87). Operands: what the QSPI NOR holds; none when no NOR answers. -/
  | bootRomStart (dt : Nat) (nor : Option (List Byte))
  /-- `IMAGE_VERIFY_DONE`: Verification of a firmware image ends, and the image is started or refused with a class 7 code 4 event (R89). -/
  | imageVerifyDone (dt : Nat)
  /-- `FW_LOAD`: A write of 0x10AD to FW_LOAD copies FW_IMAGE and starts its verification and restart (R91). -/
  | fwLoad (dt : Nat) (w : WReq)
  /-- `GPIO_STRAP_APPLY`: Held GPIO settings for the strap balls take effect once BOOT_STATE reads 3 and T_B + 20 ms has passed (R77). -/
  | gpioStrapApply (dt : Nat)
  /-- `PD_REQ_WRITE`: A write to PD_REQ starts closing or opening a gated domain, or is refused with BUSY (R95). Operands: gated domain 3 + d. -/
  | pdReqWrite (dt : Nat) (d : Fin 8) (w : WReq)
  /-- `DRAIN_END`: The 50 us drain of a closing domain ends, and jobs still running in VISOL or DISP end as under an engine reset (R97). -/
  | drainEnd (dt : Nat) (d : Fin 8)
  /-- `DOMAIN_OFF`: Power-down of a closing domain ends and the domain is OFF (R94). -/
  | domainOff (dt : Nat) (d : Fin 8)
  /-- `DOMAIN_OPEN_END`: OPENING ends: shadows are written into the RET objects and the domain becomes ON (R99). -/
  | domainOpenEnd (dt : Nat) (d : Fin 8)
  /-- `LEAT_PACKET_RETRY`: A Leat packet refused for a domain is resent at the sender's next tick, and discarded with an event after three refusals (R98). -/
  | leatPacketRetry (dt : Nat)
  /-- `PLL_REQ_MHZ_WRITE`: A write to PLL_REQ_MHZ requests a frequency change, pending until relock buckets are free (R103). -/
  | pllReqMhzWrite (dt : Nat) (p : Fin 4) (w : WReq)
  /-- `PLL_CHANGE_START`: A pending frequency change starts: the domains switch to bypass and the PLL relocks (R102). -/
  | pllChangeStart (dt : Nat) (p : Fin 5)
  /-- `PLL_CHANGE_END`: The PLL has locked and its output is released, the domains switch back and RELOCK_COUNT increments (R102). -/
  | pllChangeEnd (dt : Nat) (p : Fin 5)
  /-- `ENGINE_RESET`: A write of an engine code to ENGINE_RESET aborts the engine's outstanding jobs and increments its recovery epoch (R363). -/
  | engineReset (dt : Nat) (w : WReq)
  /-- `CLIENT_RESET`: A write of n to CLIENT_RESET aborts client n's jobs, disables its queues and resets its Client objects (R367). -/
  | clientReset (dt : Nat) (w : WReq)
  /-- `FUNCTION_LEVEL_RESET`: A PCIe function-level reset of function n resets client n as CLIENT_RESET does (R367). -/
  | functionLevelReset (dt : Nat) (fn : Fin 64)
  /-- `MEM_RATE_REQ_WRITE`: A write to MEM_RATE_REQ requests a change of DRAM data-rate point through MPLL (R110). -/
  | memRateReqWrite (dt : Nat) (w : WReq)
  /-- `MEM_TRAIN`: A write of 0x7121 to MEM_TRAIN starts retraining, which applies INLINE_ECC_REQ and zeroes DRAM (R111). -/
  | memTrain (dt : Nat) (w : WReq)
  /-- `XLAT_ROOT_WRITE`: A write to XLAT_ROOT changes a client's level-1 table and discards its cached entries before it is answered (R120). -/
  | xlatRootWrite (dt : Nat) (n : Fin 64) (w : WReq)
  /-- `XLAT_EN_WRITE`: A write to XLAT_EN turns translation on or off and discards cached entries before it is answered (R120). -/
  | xlatEnWrite (dt : Nat) (n : Fin 64) (w : WReq)
  /-- `XLAT_INVAL`: A write of 1 to XLAT_INVAL discards a client's cached table entries before it is answered (R120). -/
  | xlatInval (dt : Nat) (n : Fin 64) (w : WReq)
  /-- `REPARTITION`: A write of 0x5917 to REPARTITION copies the staged table and starts a repartition, or is refused (R123). -/
  | repartition (dt : Nat) (w : WReq)
  /-- `REPARTITION_APPLY`: Once running jobs have completed, the copied table becomes active, changed banks are zero-filled and queues resume (R124). -/
  | repartitionApply (dt : Nat)
  /-- `BANK_RETENTION_ENTRY`: A Millpond bank with no access for 1 us enters retention (R122). -/
  | bankRetentionEntry (dt : Nat) (b : Fin 32)
  /-- `REFILL_START`: A pipe's DRAM FIFO refill begins when LTR_NS falls to the threshold, or when the FIFO falls below capacity with SR_EN 0 (R130). -/
  | refillStart (dt : Nat) (p : Fin 4)
  /-- `SELF_REFRESH_ENTRY`: DRAM enters self-refresh after SR_IDLE_NS without requests while every pipe tolerates the exit latency (R131). -/
  | selfRefreshEntry (dt : Nat)
  /-- `SELF_REFRESH_EXIT`: DRAM leaves self-refresh on a new request or a falling LTR (R131). -/
  | selfRefreshExit (dt : Nat)
  /-- `Q_ENABLE_WRITE`: A write to Q_ENABLE enables a queue and zeroes its counters, or disables it once drained (R136). -/
  | qEnableWrite (dt : Nat) (q : Fin 128) (w : WReq)
  /-- `DOORBELL`: A write to a queue's doorbell accepts new submissions up to the new tail, or is refused and recorded (R141). -/
  | doorbell (dt : Nat) (fn : Fin 64) (q : Fin 128) (val : BitVec 32)
  /-- `JOB_QUERY`: A write of a handle to JOB_QUERY makes JOB_STATE report that job's state (R147). -/
  | jobQuery (dt : Nat) (fn : Fin 64) (handle : BitVec 32)
  /-- `JOB_START`: The next-in-line job of a queue starts once its wait, serial condition, window or resource allows (R143). -/
  | jobStart (dt : Nat) (q : Fin 128)
  /-- `JOB_COMPLETE`: A job completes: its writes become visible, its record is written, its signal takes effect and its vector is raised (R150). -/
  | jobComplete (dt : Nat) (q : Fin 128)
  /-- `HELD_RECORD_WRITE`: A held completion record is written to the ring once room appears (R152). -/
  | heldRecordWrite (dt : Nat) (n : Fin 64)
  /-- `CL_CR_HEAD_WRITE`: A write to CL_CR_HEAD frees completion-ring records, or is refused with RANGE (R151). -/
  | clCrHeadWrite (dt : Nat) (n : Fin 64) (w : WReq)
  /-- `CL_CR_EN_WRITE`: A write to CL_CR_EN starts the completion ring with its head and tail at 0, or stops it (R151). -/
  | clCrEnWrite (dt : Nat) (n : Fin 64) (w : WReq)
  /-- `FLAG_WRITE`: A BAR0 write to a Sluice flag or fence sets its value and clears POISON (R156). -/
  | flagWrite (dt : Nat) (fn : Fin 64) (fence : Bool) (id : Fin 1024) (upper : Bool) (val : BitVec 32)
  /-- `NOP`: A NOP command completes OK once its wait is satisfied (R139). -/
  | nop (dt : Nat) (j : JobId)
  /-- `INDIRECT`: An INDIRECT command executes LIST_COUNT list commands from LIST_VA in order (R140). -/
  | indirect (dt : Nat) (j : JobId)
  /-- `COPY`: A COPY command moves LEN bytes in the selected MODE after checking every page (R158). -/
  | copy (dt : Nat) (j : JobId) (u : Course)
  /-- `COPY_2D`: A COPY_2D command moves a rectangle of rows between pitches in the selected MODE (R158). -/
  | copy2d (dt : Nat) (j : JobId) (u : Course)
  /-- `FILL`: A FILL command writes a repeated 32-bit pattern over LEN bytes (R158). -/
  | fill (dt : Nat) (j : JobId) (u : Course)
  /-- `INGEST_PUT`: An INGEST_PUT copies a host frame into the stream's next buffer and publishes it (R166). -/
  | ingestPut (dt : Nat) (j : JobId) (u : Course)
  /-- `IS_EN_WRITE`: A write to IS_EN starts an ingest stream from frame 0, or stops it and discards a frame being received (R167). -/
  | isEnWrite (dt : Nat) (s : Fin 16) (w : WReq)
  /-- `FRAME_START_PACKET`: A CSI-2 Frame Start opens and stamps a frame, closing an open one as SHORT, or drops it when no buffer is free (R162). -/
  | frameStartPacket (dt : Nat) (port : Fin 4) (p : CsiHeader)
  /-- `LONG_PACKET`: A CSI-2 long packet delivers the next row of an open frame, checked for header ECC and CRC (R162). -/
  | longPacket (dt : Nat) (port : Fin 4) (p : CsiHeader) (payload : List Byte) (crc : BitVec 16)
  /-- `FRAME_END_PACKET`: A CSI-2 Frame End closes the frame, which is then published (R162). -/
  | frameEndPacket (dt : Nat) (port : Fin 4) (p : CsiHeader)
  /-- `WHEEL_LOAD`: A write of 0x3E11 to WHEEL_LOAD copies the table image and starts its checks (R174). -/
  | wheelLoad (dt : Nat) (w : WReq)
  /-- `WHEEL_CHECK_DONE`: The well-formedness, admission and domain checks of a table end, and it fails or is scheduled to take effect (R174). -/
  | wheelCheckDone (dt : Nat)
  /-- `WHEEL_UNLOAD`: A write of 0x0FF0 to WHEEL_UNLOAD removes the table in force, at once or at the next tick (R175). -/
  | wheelUnload (dt : Nat) (w : WReq)
  /-- `PREEMPTION_POINT`: A running job reaches a pre-emption point where a window job or higher best-effort level takes the unit (R184). Operands: `acc`, `staging`: live accumulator and staging bytes of the outgoing job. -/
  | preemptionPoint (dt : Nat) (u : SchedUnit) (acc staging : Nat)
  /-- `CONTEXT_SWITCH_DONE`: A context save or restore to the spill pool or to DRAM ends and the incoming job runs (R185). -/
  | contextSwitchDone (dt : Nat) (u : SchedUnit)
  /-- `RUN_NET`: A RUN_NET command runs a list of layer descriptors on one neural quarter (R212). -/
  | runNet (dt : Nat) (j : JobId) (u : Course)
  /-- `RUN_DIBBER`: A RUN_DIBBER command runs up to 16 thin layers on the Dibber, band by band (R212). -/
  | runDibber (dt : Nat) (j : JobId) (u : Course)
  /-- `SV_ENABLE_WRITE`: A write to SV_ENABLE enables a serving session after its checks, or disables it and frees every sequence (R232). -/
  | svEnableWrite (dt : Nat) (s : Fin 8) (w : WReq)
  /-- `SERVING_STEP`: A serving step takes its jobs, frees, resumes, parks and admits sequences, runs the network and completes the jobs (R239). -/
  | servingStep (dt : Nat) (s : Fin 8) (u : Course)
  /-- `LOAD_KERNEL`: A LOAD_KERNEL checks a container and loads it into a client's kernel slot, or refuses it with a reason (R267). -/
  | loadKernel (dt : Nat) (j : JobId)
  /-- `UNLOAD_KERNEL`: An UNLOAD_KERNEL marks a slot as unloading so that unstarted jobs naming it are refused (R268). -/
  | unloadKernel (dt : Nat) (j : JobId)
  /-- `KERNEL_SLOT_EMPTIED`: An unloading slot is emptied once no started job uses it, and the UNLOAD_KERNEL completes (R268). -/
  | kernelSlotEmptied (dt : Nat) (client : Fin 64) (kslot : Fin 16)
  /-- `RENDER_PASS`: A RENDER_PASS renders its draws in immediate or tiled organisation (R247). -/
  | renderPass (dt : Nat) (j : JobId) (u : Course)
  /-- `BIN_STORE_ACQUIRE`: A tiled pass waiting at its command takes the bin store once it is free (R256). -/
  | binStoreAcquire (dt : Nat) (j : JobId) (u : Course)
  /-- `DISPATCH`: A DISPATCH launches GX by GY by GZ workgroups of a compute kernel (R262). -/
  | dispatch (dt : Nat) (j : JobId) (u : Course)
  /-- `VX_DETECT`: A VX_DETECT scores pixels and writes the best feature per cell for each selected stream (R279). -/
  | vxDetect (dt : Nat) (j : JobId)
  /-- `VX_TRACK`: A VX_TRACK builds each selected stream's pyramid and tracks its features against the reference (R280). -/
  | vxTrack (dt : Nat) (j : JobId)
  /-- `VX_MATCH`: A VX_MATCH matches two feature sets by Hamming distance with gate and ratio tests (R282). -/
  | vxMatch (dt : Nat) (j : JobId)
  /-- `VISION_UNIT_END`: A vision unit ends and the control core chooses the next unit among started jobs (R283). -/
  | visionUnitEnd (dt : Nat) (u : List Upset)
  /-- `SLV_UPLOAD`: An SLV_UPLOAD compiles a bundle-adjustment structure into a resident solver slot (R287). -/
  | slvUpload (dt : Nat) (j : JobId) (u : List Upset)
  /-- `SLV_SOLVE_BA`: An SLV_SOLVE_BA applies updates, runs damped Gauss-Newton iterations and commits to the slot (R290). -/
  | slvSolveBa (dt : Nat) (j : JobId) (u : Course)
  /-- `SLV_DENSE`: An SLV_DENSE solves a dense least-squares system by Cholesky (R291). -/
  | slvDense (dt : Nat) (j : JobId) (u : List Upset)
  /-- `SOLVE_DEADLINE`: A solve reaches its deadline before its commit and completes DEADLINE_MISSED with nothing written (R293). -/
  | solveDeadline (dt : Nat) (j : JobId)
  /-- `ST_CLEAR`: A write of 1 to ST_CLEAR empties a solver structure slot (R297). -/
  | stClear (dt : Nat) (k : Fin 4) (w : WReq)
  /-- `FRAME_START`: A pipe's frame begins at its first blanking line: layers, presentations and Millrace settings latch (R300). -/
  | frameStart (dt : Nat) (p : Fin 4) (u : List Upset)
  /-- `BAND_START`: The Dibber starts a band once its slot is free and the previous band is complete (R302). -/
  | bandStart (dt : Nat) (p : LatchIn)
  /-- `BAND_COMPLETE`: Every write of a band is visible in its slot (R301). -/
  | bandComplete (dt : Nat) (p : Fin 4)
  /-- `BAND_DEADLINE`: A band not complete at its deadline is late: the Dibber abandons it and the fallback unit takes the slot (R303). -/
  | bandDeadline (dt : Nat) (p : LatchIn)
  /-- `PIPE_IF_WRITE`: A write to PIPE_IF binds a pipe to a port, sets LINK_STATE to DOWN and resets the underrun mode (R311). -/
  | pipeIfWrite (dt : Nat) (p : Fin 4) (w : WReq)
  /-- `LINK_TRAIN`: A write of 0x71A1 to LINK_TRAIN checks the timing and brings up the DSI or DP link (R315). -/
  | linkTrain (dt : Nat) (p : Fin 4) (w : WReq)
  /-- `PIPE_EN_WRITE`: A write to PIPE_EN starts a pipe's timing at frame 0, or stops it at the next frame start (R317). -/
  | pipeEnWrite (dt : Nat) (p : Fin 4) (w : WReq)
  /-- `HPD_LOW`: HPD low for 2 ms on a trained DP link sets LINK_STATE to LOST and posts an event (R316). -/
  | hpdLow (dt : Nat) (port : Fin 2)
  /-- `HPD_PULSE`: An HPD pulse of 0.5 to 1 ms posts an event (R316). -/
  | hpdPulse (dt : Nat) (port : Fin 2)
  /-- `PRESENT`: A PRESENT is checked and becomes ready to be latched at its target frame (R321). -/
  | present (dt : Nat) (j : JobId)
  /-- `LINK_XFER`: A LINK_XFER sends a DSI, AUX or I2C-over-AUX transfer and returns the result (R323). -/
  | linkXfer (dt : Nat) (j : JobId) (reply : LinkReply)
  /-- `PALETTE`: A PALETTE command copies entries into the staged palette (R323). -/
  | palette (dt : Nat) (j : JobId)
  /-- `FRAME_SCAN_END`: The scan of a frame's last active line ends and replaced buffers are released (R322). -/
  | frameScanEnd (dt : Nat) (p : Fin 4)
  /-- `UNDERRUN`: A DRAM-fed layer lacks data for a pixel, which is repeated or the frame is abandoned (R327). Operands: the first pixel of a run of `count` pixels that lack data. -/
  | underrun (dt : Nat) (p : Fin 4) (x y count : Nat)
  /-- `OUTCHK_COMPARE`: The pipeline and pin CRCs of a checked frame are compared and counted (R329). Operands: the pin CRC re-captured; none when the capture lost decoding. -/
  | outchkCompare (dt : Nat) (p : Fin 4) (pins : Option (BitVec 32))
  /-- `LEAT_LINK_UP`: A Leat port finishes training with its peer and goes UP (R332). -/
  | leatLinkUp (dt : Nat) (port : Fin 2) (peer : Fin 8)
  /-- `LEAT_LINK_DOWN`: A Leat port goes DOWN, discards its packets, and a formed cascade degrades (R332). -/
  | leatLinkDown (dt : Nat) (port : Fin 2)
  /-- `DATA`: A received DATA packet writes its payload at the destination address (R333). -/
  | data (dt : Nat) (port : Fin 2) (pkt : List Byte)
  /-- `DOORBELL_PACKET`: A received DOORBELL packet rings a local queue as its owner would (R344). -/
  | doorbellPacket (dt : Nat) (port : Fin 2) (pkt : List Byte)
  /-- `TICK_PACKET`: A received TICK packet is compared with the local cascade tick number, which is corrected with a slip on a mismatch (R338). -/
  | tickPacket (dt : Nat) (port : Fin 2) (pkt : List Byte)
  /-- `SEAM`: A received SEAM packet writes into the half of its seam slot selected by CTICK (R346). -/
  | seam (dt : Nat) (port : Fin 2) (pkt : List Byte)
  /-- `READ_REQ`: A received READ_REQ reads local memory for a remote LEAT_FETCH (R343). -/
  | readReq (dt : Nat) (port : Fin 2) (pkt : List Byte)
  /-- `READ_DATA`: A received READ_DATA packet writes fetched data to the local destination (R343). -/
  | readData (dt : Nat) (port : Fin 2) (pkt : List Byte)
  /-- `DONE`: A received DONE packet ends a Leat transfer and completes its job (R343). -/
  | done (dt : Nat) (port : Fin 2) (pkt : List Byte)
  /-- `DISCOVER_PACKET`: A received cascade DISCOVER is relayed and answered with a DISCOVER_REPLY (R340). -/
  | discoverPacket (dt : Nat) (port : Fin 2) (pkt : List Byte)
  /-- `DISCOVER_REPLY`: A received DISCOVER_REPLY is gathered by the forming master (R340). -/
  | discoverReply (dt : Nat) (port : Fin 2) (pkt : List Byte)
  /-- `CONFIG`: A received CONFIG packet sets the follower's routes and master and switches its tick source to TICK_IN (R340). -/
  | config (dt : Nat) (port : Fin 2) (pkt : List Byte)
  /-- `LEAT_SEND`: A LEAT_SEND transfers bytes to a remote device and may ring a doorbell there (R343). -/
  | leatSend (dt : Nat) (j : JobId)
  /-- `SEAM_SEND`: A SEAM_SEND transfers a seam band to a seam slot of another device (R343). -/
  | seamSend (dt : Nat) (j : JobId)
  /-- `LEAT_FETCH`: A LEAT_FETCH reads remote memory into local memory (R343). -/
  | leatFetch (dt : Nat) (j : JobId)
  /-- `CAS_FORM`: A write of 0x6A5C to CAS_FORM on the master starts cascade formation (R340). -/
  | casForm (dt : Nat) (w : WReq)
  /-- `FORMATION_CHECK`: The 10 ms for replies ends and the master checks them, refusing or configuring the followers (R340). -/
  | formationCheck (dt : Nat)
  /-- `CAS_DISSOLVE`: A write of 0xD150 to CAS_DISSOLVE on the master returns every member to ALONE (R341). -/
  | casDissolve (dt : Nat) (w : WReq)
  /-- `TICK_PACKET_TIMEOUT`: No TICK packet arrives within 100 us of a follower's tick, and its offset is corrected with a slip (R338). -/
  | tickPacketTimeout (dt : Nat)
  /-- `SEAM_DEADLINE`: No complete seam for tick n has arrived at the deadline bucket, so the previous half is copied and the flag set (R347). -/
  | seamDeadline (dt : Nat) (k : Fin 8)
  /-- `GOV_KEY`: A firmware write to GOV_KEY serves the Governor in its window, or is early and expires it (R352). -/
  | govKey (dt : Nat) (w : WReq)
  /-- `GOVERNOR_EXPIRY`: The Governor expires, freezes pipes, resets the control core, vision and solver and restarts the firmware (R353). -/
  | governorExpiry (dt : Nat)
  /-- `SCARE_KEY`: A write to SCARE_KEY serves the Scarecrow in its window, or counts as an expiry (R354). -/
  | scareKey (dt : Nat) (w : WReq)
  /-- `SCARE_DISABLE`: Writes of 0x3A7C then 0xC5B2 to SCARE_DISABLE disable the Scarecrow unless locked (R355). -/
  | scareDisable (dt : Nat) (w : WReq)
  /-- `SCARE_LOCK`: A write of 1 to SCARE_LOCK locks the Scarecrow and enables it if disabled (R355). -/
  | scareLock (dt : Nat) (w : WReq)
  /-- `SCARECROW_EXPIRY`: The Scarecrow expires: a first expiry alerts the host, a second resets clients 1 to 63 and flushes client 0 (R356). -/
  | scarecrowExpiry (dt : Nat)
  /-- `SELFTEST`: A write of 0x7E57 to SELFTEST starts March C- tests of the selected Millpond and DRAM parts (R378). -/
  | selftest (dt : Nat) (w : WReq)
  /-- `TAP_RESET`: TRST_N low or five TCK edges with TMS high put the TAP in Test-Logic-Reset with IDCODE in force (R370). -/
  | tapReset (dt : Nat) (t : TapIn)
  /-- `EXTEST`: The EXTEST instruction takes the balls through the boundary register and holds the device as in PORST_N low (R372). -/
  | extest (dt : Nat) (t : TapIn)
  /-- `SAMPLE_PRELOAD`: The SAMPLE/PRELOAD instruction captures and preloads the boundary register without taking the balls (R371). -/
  | samplePreload (dt : Nat) (t : TapIn)
  /-- `IDCODE`: The IDCODE instruction selects the 32-bit identification register 0x1074_0ABD (R371). -/
  | idcode (dt : Nat) (t : TapIn)
  /-- `CLAMP`: The CLAMP instruction takes the balls at the boundary values and selects bypass (R371). -/
  | clamp (dt : Nat) (t : TapIn)
  /-- `HIGHZ`: The HIGHZ instruction takes the balls to high impedance and selects bypass (R371). -/
  | highz (dt : Nat) (t : TapIn)
  /-- `EXTEST_PULSE`: The EXTEST_PULSE instruction drives IEEE 1149.6 AC pulse patterns on differential pairs (R374). -/
  | extestPulse (dt : Nat) (t : TapIn)
  /-- `EXTEST_TRAIN`: The EXTEST_TRAIN instruction drives IEEE 1149.6 AC pulse trains on differential pairs (R374). -/
  | extestTrain (dt : Nat) (t : TapIn)
  /-- `STRAP_READ`: The STRAP_READ instruction captures the latched straps and the REFCLK check result (R375). -/
  | strapRead (dt : Nat) (t : TapIn)
  /-- `BAND_CRC`: The BAND_CRC instruction captures the CRC of the latest completed band of the selected pipe (R376). -/
  | bandCrc (dt : Nat) (t : TapIn)
  /-- `OUTCHK_LOOP`: The OUTCHK_LOOP instruction captures the pipeline and pin CRCs of the selected port's last compared frame (R377). -/
  | outchkLoop (dt : Nat) (t : TapIn)
  /-- `BYPASS`: The BYPASS instruction, or any unlisted code, selects the 1-bit bypass register (R371). -/
  | bypass (dt : Nat) (t : TapIn)
  /-- `SUPPLIES_GOOD`: The supply groups rise to good with PORST_N held low: AON comes ON, the balls take their reset states and boundary scan becomes operational (R85). -/
  | suppliesGood (dt : Nat)
  /-- `PERST_N_RELEASE`: The host releases PERST_N and the PCI Express link trains when PCIE_EN is 1 (R80). -/
  | perstNRelease (dt : Nat)
  /-- `CSI_LANE_ERROR`: A CSI-2 receiver gains or loses its footing on its lanes, moving CSI_STATE among stop state, receiving and lane error (R168). -/
  | csiLaneError (dt : Nat) (port : Fin 4) (st : CsiLanes)
  /-- `PLCA_BEACON_LOSS`: A node stops receiving BEACONs from the PLCA coordinator and falls back to CSMA/CD after the beacon timeout (R81). -/
  | plcaBeaconLoss (dt : Nat)
  deriving DecidableEq, Repr

end Sys2Proof
end

