-- ==== Sys2Proof/Config.lean ====
section
/-! DEFINITION. What the spec leaves open: free values. Nothing in Lean can evaluate them. -/

namespace Sys2Proof.Config

/-- The floating-point operations whose results R265 gives. -/
inductive FpOp where
  | add | sub | mul | fma | div | sqrt | rcp | rsqrt | exp2 | log2 | sin | cos
  deriving DecidableEq, Repr

/-- An operation of a SPIR-V module that the spec gives a result or an effect (R258 to R265); `half` stands for FP16, else
FP32. Integer, logical and control-flow operations are the module's own and join what the next operation is asked with. -/
inductive ShOp where
  /-- the invocation has ended -/
  | done
  | fp (half : Bool) (op : FpOp) (args : List Nat)
  /-- conversion between FP16 and FP32 -/
  | fpToFp (half : Bool) (a : Nat)
  | fpToInt (half : Bool) (bits : Nat) (sgn : Bool) (a : Nat)
  | intToFp (half : Bool) (bits : Nat) (sgn : Bool) (a : Nat)
  /-- memory through an address -/
  | load (va n : Nat)
  | store (va : Nat) (data : List Byte)
  /-- a buffer binding -/
  | bufLoad (binding off n : Nat)
  | bufStore (binding off : Nat) (data : List Byte)
  /-- a sampled texture: level of detail in 1/256, position in 1/256 texel of level 0 -/
  | sample (binding lod : Nat) (x y : Int)
  /-- a storage image -/
  | imgLoad (binding : Nat) (x y : Int)
  | imgStore (binding : Nat) (x y : Int) (rgba : List Nat)
  /-- size and levels of an image -/
  | query (binding : Nat)
  /-- private scratch -/
  | privLoad (off n : Nat)
  | privStore (off : Nat) (data : List Byte)
  /-- the start of the block of cheap point i -/
  | cheap (i : Nat)
  /-- a value the spec does not give: shared memory, other lanes, derivatives -/
  | open_
  deriving DecidableEq, Repr, Inhabited

/-- A fresh value for the n-th open value of a run (log entry 2). -/
opaque freeNat : Nat → Nat

/-- Where one step leaves many values open at once: the draw, and the number of the value in it (log entry 2). -/
opaque freeAt : Nat → Nat → Nat

/-- The device's nonce Nd of the n-th SESSION_OPEN (R41): 16 bytes in one number. -/
opaque nonce : Nat → Nat

/-- Balls that the board drives at the n-th sample, and the levels there at balls the device does not drive (R77). -/
opaque gpioDriven : Nat → Nat
opaque gpioIn : Nat → Nat

/-- Level at the HPD pin of a DP port at a time (R80). -/
opaque hpdPin : Nat → Nat → Nat

/-- Length code 1 to 7 (0: stored uncompressed) of the device-own encoding of a 256-byte block (R127). -/
opaque blockCode : List Byte → Nat

/-- The stored bytes of a compressed block (R127, R128: known to the device alone). -/
opaque blockStored : List Byte → List Byte

/-- The next operation of an invocation of a module (log entry 7): the module, the inputs of the invocation, and what the
operations before it gave, the last one first. -/
opaque shaderStep : List Byte → List Nat → List (List Nat) → ShOp

/-- A bound on the operations of an invocation. -/
opaque shaderLength : List Byte → List Nat → Nat

/-- A word that an invocation leaves as its result (log entry 7): module, inputs, what its operations gave, and its number. -/
opaque shaderOut : List Byte → List Nat → List (List Nat) → Nat → Nat

/-- For primitives whose coverage R243 does not give, lines, points and triangles without finite positions (log entry 18):
primitive and number of the value, x, y. Value 0 holds the coverage of the pixel in bit 0 and what else is open above it. -/
opaque coverage : List Nat → Nat → Nat → Nat

/-- Which of the codes within the bound of R245 an sRGB encoding takes (log entry 8). -/
opaque srgbPick : Nat → Nat

/-- Decoding of an sRGB component of 8 bits to F32 bits where only a tolerance is given (log entry 8). -/
opaque srgb : Nat → Nat

/-- Bundle adjustment: words of Exp(ω) (operation 0) and of a turned pose (operation 1), open within the bounds that the model
holds them to (log entry 9): operation, inputs as F32 bits, number of the word. -/
opaque solverWord : Nat → List Nat → Nat → Nat

/-- Numerator and denominator less 1 of an element of a Winograd transform matrix (R202 gives none, log entry 15): output
tile side, matrix (0 input, 1 filter, 2 output), row, column. -/
opaque winoMatrix : Nat → Nat → Nat → Nat → Int × Nat

/-- Order of a sum whose order the spec leaves open (log entry 15): the kind of sum, and the number of the choice in it. -/
opaque sumOrder : Nat → Nat → Nat

/-- Elements of R_Δ, given within 2^-20 of their exact values (R306): source pose, newest pose, element 0 to 8. -/
opaque rotDelta : List Nat → List Nat → Nat → Nat

end Sys2Proof.Config
end

