-- ==== Sys2Proof/Machine/Operands.lean ====
section
/-! DEFINITION. Byte order, bit fields and the fields of slots, descriptors, records and frames. -/

namespace Sys2Proof.Machine

/-- Little-endian value of bytes. -/
def le : List Byte → Nat
  | [] => 0
  | b :: r => b.toNat + 256 * le r

/-- Big-endian value of bytes. -/
def be (l : List Byte) : Nat := le l.reverse

/-- `n` little-endian bytes of a value. -/
def toLe : Nat → Nat → List Byte
  | 0, _ => []
  | n + 1, v => BitVec.ofNat 8 v :: toLe n (v / 256)

/-- `n` big-endian bytes of a value. -/
def toBe (n v : Nat) : List Byte := (toLe n v).reverse

/-- The `n` bytes at an offset. -/
def slice (l : List Byte) (off n : Nat) : List Byte := (l.drop off).take n

/-- The little-endian field of `n` bytes at an offset. -/
def fld (l : List Byte) (off n : Nat) : Nat := le (slice l off n)

/-- The big-endian field of `n` bytes at an offset. -/
def fldBe (l : List Byte) (off n : Nat) : Nat := be (slice l off n)

/-- `n` bits of a value from bit `lo` up. -/
def bitsOf (v lo n : Nat) : Nat := v / 2 ^ lo % 2 ^ n

/-- One bit of a value. -/
def bitOf (v i : Nat) : Bool := v / 2 ^ i % 2 == 1

/-- A value with bit `i` set to `b`. -/
def putBit (v i : Nat) (b : Bool) : Nat :=
  if bitOf v i == b then v else if b then v + 2 ^ i else v - 2 ^ i

/-- Bitwise OR by way of numbers of `n` bits. -/
def orN (a b : Nat) : Nat := a ||| b

/-- Bits `a` without the bits `b`. -/
def clearN (a b : Nat) : Nat := a - (a &&& b)

/-- An `n`-bit field read as two's complement. -/
def signed (n v : Nat) : Int := if v % 2 ^ n < 2 ^ (n - 1) then (v % 2 ^ n : Nat) else ((v % 2 ^ n : Nat) : Int) - 2 ^ n

/-- An integer as an `n`-bit two's complement field. -/
def unsigned (n : Nat) (v : Int) : Nat := (v % (2 ^ n : Nat)).toNat

/-- Ceiling of a quotient. -/
def ceilDiv (a b : Nat) : Nat := (a + b - 1) / b

/-- (a − b) modulo 2^w, for counters that wrap. -/
def subMod (w a b : Nat) : Nat := (a + (2 ^ w - b % 2 ^ w)) % 2 ^ w

/-- (v − w) mod 2^32 < 2^31: the order of wrapped 32-bit values (R154). -/
def reached (v w : Nat) : Bool := subMod 32 v w < 2 ^ 31

/-- All bytes of a range are 0. -/
def zeros (l : List Byte) (off n : Nat) : Bool := (slice l off n).all (· == 0)

/-- `n` zero bytes. -/
def zeroBytes (n : Nat) : List Byte := List.replicate n 0

/-- The list cut or padded with zero bytes to `n` bytes. -/
def padTo (n : Nat) (l : List Byte) : List Byte := (l ++ zeroBytes n).take n

/-- The first `n` numbers from `a`. -/
def rangeFrom (a n : Nat) : List Nat := (List.range n).map (· + a)

/-- A power of two between two bounds. -/
def isPow2Between (lo hi v : Nat) : Bool :=
  lo ≤ v && v ≤ hi && (List.range 17).any (fun i => 2 ^ i == v)

/-- The slot of R138, field by field. -/
def slotOpcode (b : List Byte) : Nat := fld b 0 1
def slotNotify (b : List Byte) : Bool := bitOf (fld b 1 1) 7
def slotSerial (b : List Byte) : Bool := bitOf (fld b 1 1) 6
def slotWaitEn (b : List Byte) : Bool := bitOf (fld b 1 1) 5
def slotWaitFence (b : List Byte) : Bool := bitOf (fld b 1 1) 4
def slotSigEn (b : List Byte) : Bool := bitOf (fld b 1 1) 3
def slotSigFence (b : List Byte) : Bool := bitOf (fld b 1 1) 2
def slotWaitId (b : List Byte) : Nat := fld b 2 2
def slotSigId (b : List Byte) : Nat := fld b 4 2
def slotTemplate (b : List Byte) : Nat := fld b 6 2
def slotWaitValue (b : List Byte) : Nat := fld b 8 4
def slotSigValue (b : List Byte) : Nat := fld b 12 4

/-- Reserved fields of a slot outside PAYLOAD (R138). -/
def slotReservedOk (b : List Byte) : Bool := bitsOf (fld b 1 1) 0 2 == 0 && zeros b 16 8

end Sys2Proof.Machine
end

