-- ==== Sys2Proof/Machine/Crypto.lean ====
section
/-! DEFINITION. The algorithms the spec names by their standards: HMAC-SHA-256 (R41, R42), SHA-384 and
ECDSA P-384 (R89, R267), CRC-32 of IEEE 802.3 (R328, R333). PRESUMED from the standards named (log entry 6). -/

namespace Sys2Proof.Machine

/-! ## SHA-2 (FIPS 180-4): its constants are leading fraction bits of roots of the first primes -/

/-- The primes below 410, of which FIPS 180-4 takes the first 80. -/
def shaPrimes : List Nat :=
  (List.range 410).filter (fun n => 1 < n && (List.range 21).all (fun d => d < 2 || d ≥ n || n % d != 0))

/-- The largest r of at most `i` more bits above `r` with r^k ≤ n. -/
def rootFrom (k n : Nat) : Nat → Nat → Nat
  | 0, r => r
  | i + 1, r => rootFrom k n i (if (r + 2 ^ i) ^ k ≤ n then r + 2 ^ i else r)

/-- The first `w` bits of the fraction of the k-th root of n. -/
def rootFraction (k w n : Nat) : Nat := rootFrom k (n * 2 ^ (k * w)) (w + 5) 0 % 2 ^ w

/-- What SHA-256 and SHA-384 do not share: word bits, the primes whose cube roots give the round constants and whose
square roots give the initial value, and the counts of the four rotation functions. -/
structure Sha where
  w : Nat
  rounds : List Nat
  start : List Nat
  big0 : Nat × Nat × Nat
  big1 : Nat × Nat × Nat
  small0 : Nat × Nat × Nat
  small1 : Nat × Nat × Nat
  deriving DecidableEq, Repr

def sha256Params : Sha :=
  { w := 32, rounds := shaPrimes.take 64, start := shaPrimes.take 8,
    big0 := (2, 13, 22), big1 := (6, 11, 25), small0 := (7, 18, 3), small1 := (17, 19, 10) }

def sha384Params : Sha :=
  { w := 64, rounds := shaPrimes.take 80, start := (shaPrimes.drop 8).take 8,
    big0 := (28, 34, 39), big1 := (14, 18, 41), small0 := (1, 8, 7), small1 := (19, 61, 6) }

def Sha.k (h : Sha) : List Nat := h.rounds.map (rootFraction 3 h.w)

def rotr (w x n : Nat) : Nat := x / 2 ^ n + x % 2 ^ n * 2 ^ (w - n)

/-- Rotations of the two Σ functions. -/
def shaBig (h : Sha) (r : Nat × Nat × Nat) (x : Nat) : Nat :=
  rotr h.w x r.1 ^^^ rotr h.w x r.2.1 ^^^ rotr h.w x r.2.2

/-- Rotations and shift of the two σ functions. -/
def shaSmall (h : Sha) (r : Nat × Nat × Nat) (x : Nat) : Nat :=
  rotr h.w x r.1 ^^^ rotr h.w x r.2.1 ^^^ (x / 2 ^ r.2.2)

/-- The message schedule, newest word first; `n` words still to add. -/
def shaSchedule (h : Sha) : Nat → List Nat → List Nat
  | 0, ws => ws
  | n + 1, ws =>
    let back := fun i => ws.getD (i - 1) 0
    shaSchedule h n ((back 16 + back 7 + shaSmall h h.small0 (back 15) + shaSmall h h.small1 (back 2)) % 2 ^ h.w :: ws)

/-- The working variables: the newest four values of each of the two registers that a round feeds, newest first. -/
abbrev ShaRegs := List Nat × List Nat

/-- One round on a constant and a schedule word. -/
def shaRound (h : Sha) (v : ShaRegs) (kw : Nat × Nat) : ShaRegs :=
  let p := fun i => v.1.getD i 0
  let q := fun i => v.2.getD i 0
  -- bits of the second register's newest value select between the two before it
  let chosen := (q 0 &&& q 1) + ((2 ^ h.w - 1 - q 0) &&& q 2)
  let majority := (p 0 &&& p 1) ||| (p 2 &&& (p 0 ||| p 1))
  let into := kw.1 + kw.2 + q 3 + chosen + shaBig h h.big1 (q 0)
  ((into + majority + shaBig h h.big0 (p 0)) % 2 ^ h.w :: v.1.take 3, (into + p 3) % 2 ^ h.w :: v.2.take 3)

/-- Big-endian words of a block. -/
def shaWords (bytes : Nat) : Nat → List Byte → List Nat
  | 0, _ => []
  | n + 1, l => be (l.take bytes) :: shaWords bytes n (l.drop bytes)

/-- A block of 16 words: its schedule drives the rounds, whose registers are added to those before. -/
def shaBlock (h : Sha) (k : List Nat) (v : ShaRegs) (block : List Byte) : ShaRegs :=
  let ws := shaSchedule h (k.length - 16) (shaWords (h.w / 8) 16 block).reverse
  let r := (k.zip ws.reverse).foldl (shaRound h) v
  let plus := fun (a b : List Nat) => (a.zip b).map (fun x => (x.1 + x.2) % 2 ^ h.w)
  (plus v.1 r.1, plus v.2 r.2)

def shaBlocks (h : Sha) (k : List Nat) : Nat → ShaRegs → List Byte → ShaRegs
  | 0, v, _ => v
  | n + 1, v, l => shaBlocks h k n (shaBlock h k v (l.take (2 * h.w))) (l.drop (2 * h.w))

/-- Padding to whole blocks of 2 × w bytes, the length in w/4 bytes. -/
def shaPad (h : Sha) (m : List Byte) : List Byte :=
  let blk := 2 * h.w
  let len := h.w / 4
  let z := (blk - (m.length + 1 + len) % blk) % blk
  m ++ [0x80] ++ zeroBytes z ++ toBe len (8 * m.length)

/-- The digest before a truncation. -/
def shaDigest (h : Sha) (m : List Byte) : List Byte :=
  let p := shaPad h m
  let iv := h.start.map (rootFraction 2 h.w)
  let v := shaBlocks h h.k (p.length / (2 * h.w)) (iv.take 4, iv.drop 4) p
  (v.1 ++ v.2).flatMap (toBe (h.w / 8))

def sha256 (m : List Byte) : List Byte := shaDigest sha256Params m

def sha384 (m : List Byte) : List Byte := (shaDigest sha384Params m).take 48

/-- HMAC-SHA-256 of FIPS 198. -/
def hmacSha256 (key m : List Byte) : List Byte :=
  let k := padTo 64 (if key.length ≤ 64 then key else sha256 key)
  sha256 (k.map (· ^^^ 0x5c) ++ sha256 (k.map (· ^^^ 0x36) ++ m))

/-! ## ECDSA on P-384 -/

/-- The field prime, order, b and base point of P-384. -/
def p384P : Nat := 2 ^ 384 - 2 ^ 128 - 2 ^ 96 + 2 ^ 32 - 1
def p384N : Nat := 0xffffffffffffffffffffffffffffffffffffffffffffffffc7634d81f4372ddf581a0db248b0a77aecec196accc52973
def p384B : Nat := 0xb3312fa7e23ee7e4988e056be3f82d19181d9c6efe8141120314088f5013875ac656398d8a2ed19d2a85c8edd3ec2aef
def p384G : Nat × Nat :=
  (0xaa87ca22be8b05378eb1c71ef320ad746e1d3b628ba79b9859f741e082542a385502f25dbf55296c3a545e3872760ab7,
   0x3617de4a96262c6f5d9e98bf9292dc29f8f41dbd289a147ce9da3113b5f0b8c00a60b1ce1d7e819d7a431d7c90ea0e5f)

/-- b^e mod m, by squaring over `n` bits of the exponent. -/
def powMod (m : Nat) : Nat → Nat → Nat → Nat
  | 0, _, _ => 1
  | n + 1, b, e =>
    let r := powMod m n (b * b % m) (e / 2)
    if e % 2 == 1 then r * b % m else r

def invMod (m a : Nat) : Nat := powMod m 384 (a % m) (m - 2)

/-- Double a point of P-384 in Jacobian coordinates (x = X / Z², y = Y / Z³; Z = 0 is the point at infinity). -/
def ecDouble (a : Nat × Nat × Nat) : Nat × Nat × Nat :=
  let (x, y, z) := a
  let p := p384P
  let yy := y * y % p
  let zz := z * z % p
  let u := 4 * x * yy % p
  let m := 3 * (x * x + (p - zz * zz % p)) % p
  let x3 := (m * m + 2 * (p - u)) % p
  (x3, (m * (u + (p - x3)) + (p - 8 * yy * yy % p)) % p, 2 * y * z % p)

/-- Sum of two points of P-384. -/
def ecAdd (a b : Nat × Nat × Nat) : Nat × Nat × Nat :=
  let (x1, y1, z1) := a
  let (x2, y2, z2) := b
  let p := p384P
  if z1 == 0 then b else if z2 == 0 then a else
  let u1 := x1 * z2 * z2 % p
  let u2 := x2 * z1 * z1 % p
  let s1 := y1 * z2 * z2 % p * z2 % p
  let s2 := y2 * z1 * z1 % p * z1 % p
  if u1 == u2 then (if s1 == s2 then ecDouble a else (1, 1, 0))
  else
    let h := (u2 + (p - u1)) % p
    let r := (s2 + (p - s1)) % p
    let hh := h * h % p
    let hhh := hh * h % p
    let v := u1 * hh % p
    let x3 := (r * r + (p - hhh) + 2 * (p - v)) % p
    (x3, (r * (v + (p - x3)) + (p - s1 * hhh % p)) % p, h * z1 % p * z2 % p)

/-- k × P over `n` bits. -/
def ecMul : Nat → Nat → Nat × Nat × Nat → Nat × Nat × Nat
  | 0, _, _ => (1, 1, 0)
  | n + 1, k, a =>
    let r := ecMul n (k / 2) (ecDouble a)
    if k % 2 == 1 then ecAdd r a else r

/-- ECDSA P-384 with SHA-384: `key` is X then Y, `sig` is r then s, 48 bytes each, big-endian (R88). -/
def ecdsaVerify (key msg sig : List Byte) : Bool :=
  let x := be (key.take 48)
  let y := be (slice key 48 48)
  let r := be (sig.take 48)
  let t := be (slice sig 48 48)
  let onCurve := x < p384P && y < p384P && y * y % p384P == (x * x * x + (p384P - 3) * x + p384B) % p384P
  if key.length == 96 && sig.length == 96 && onCurve && 0 < r && r < p384N && 0 < t && t < p384N then
    let w := invMod p384N t
    let e := be (sha384 msg)
    match ecAdd (ecMul 384 (e * w % p384N) (p384G.1, p384G.2, 1)) (ecMul 384 (r * w % p384N) (x, y, 1)) with
    | (px, _, pz) => pz != 0 && px * invMod p384P (pz * pz % p384P) % p384P % p384N == r
  else false

/-! ## CRC-32 -/

/-- One bit of the reflected CRC-32. -/
def crcBit (c : Nat) : Nat := if c % 2 == 1 then c / 2 ^^^ 0xEDB88320 else c / 2

def crcByte (c : Nat) (b : Byte) : Nat :=
  crcBit (crcBit (crcBit (crcBit (crcBit (crcBit (crcBit (crcBit (c ^^^ b.toNat))))))))

/-- CRC-32 of IEEE 802.3: reflected, initial value and final XOR 0xFFFF_FFFF (R328). -/
def crc32 (l : List Byte) : Nat := (l.foldl crcByte 0xFFFFFFFF) ^^^ 0xFFFFFFFF

end Sys2Proof.Machine
end

