-- ==== Sys2Proof/Machine/Objects.lean ====
section
/-! DEFINITION. The object dictionary's table: every object row of the spec's chapters (R4, R30), as data.
`Od.NAME` is the key of an object, its 16-bit index times 256 plus its sub-index (R3). -/

namespace Sys2Proof.Machine

/-- Object types (R24). -/
inductive Ty where
  | bool | u8 | u16 | u32 | u64 | i32 | f32 | str | dom
  deriving DecidableEq, Repr

/-- Access classes (R26). No row of the spec has class RET. -/
inductive Acc where
  | ro | rw | wo | rwl | wo1 | rc
  deriving DecidableEq, Repr

/-- Reset domains (R27). -/
inductive ResetDom where
  | never | powerOn | warm | engine | client
  deriving DecidableEq, Repr

/-- The values that an object's row admits on a write (R25). -/
inductive Rng where
  /-- every value of the type -/
  | all
  | upTo (lo hi : Nat)
  | upToOr (lo hi other : Nat)
  | oneOf (l : List Nat)
  /-- bits outside the mask are reserved: ignored on a write (R6) -/
  | bits (mask : Nat)
  | mult (m : Nat)
  | multBelow (m bound : Nat)
  | pow2 (lo hi : Nat)
  /-- an F32 that is finite and above 0 -/
  | f32Pos
  /-- an F32 above 0 and below 1 -/
  | f32Unit
  deriving DecidableEq, Repr

/-- One row of an object table (R4), for the sub-indices `lo` to `hi`. -/
structure Row where
  lo : Nat
  hi : Nat
  ty : Ty
  acc : Acc
  dflt : Nat
  rdom : ResetDom
  rng : Rng
  deriving DecidableEq, Repr

/-- Type codes of BAP frames and the PCIe window (R24). -/
def Ty.code : Ty → Nat
  | .bool => 1 | .u8 => 2 | .u16 => 3 | .u32 => 4 | .u64 => 5 | .i32 => 6 | .f32 => 7 | .str => 8 | .dom => 9

/-- Size in bytes of the fixed-size types (R24); 0 for STR and DOM. -/
def Ty.size : Ty → Nat
  | .bool => 1 | .u8 => 1 | .u16 => 2 | .u32 => 4 | .u64 => 8 | .i32 => 4 | .f32 => 4 | .str => 0 | .dom => 0

namespace Od

/-- Object `TICK_SRC` (R21). -/
def TICK_SRC : Nat := 0x210001
/-- Object `TICK_EN` (R21). -/
def TICK_EN : Nat := 0x210002
/-- Object `TICK_COUNT` (R21). -/
def TICK_COUNT : Nat := 0x210003
/-- Object `CUR_BUCKET` (R21). -/
def CUR_BUCKET : Nat := 0x210004
/-- Object `GEN_PERIOD_NS` (R21). -/
def GEN_PERIOD_NS : Nat := 0x210005
/-- Object `PERIOD_NS` (R21). -/
def PERIOD_NS : Nat := 0x210006
/-- Object `TICK_TS` (R21). -/
def TICK_TS : Nat := 0x210007
/-- Object `RUNT_COUNT` (R21). -/
def RUNT_COUNT : Nat := 0x210008
/-- Object `SUBST_COUNT` (R21). -/
def SUBST_COUNT : Nat := 0x210009
/-- Object `SUBST_ACTIVE` (R21). -/
def SUBST_ACTIVE : Nat := 0x21000A
/-- Object `TICK_OUT_EN` (R21). -/
def TICK_OUT_EN : Nat := 0x21000B
/-- Object `IRREG_COUNT` (R21). -/
def IRREG_COUNT : Nat := 0x21000C
/-- Object `DEV_TS` (R21). -/
def DEV_TS : Nat := 0x21000D
/-- Object `DEVICE_ID` (R60). -/
def DEVICE_ID : Nat := 0x100001
/-- Object `STEPPING` (R60). -/
def STEPPING : Nat := 0x100002
/-- Object `FW_VERSION` (R60). -/
def FW_VERSION : Nat := 0x100003
/-- Object `SERIAL` (R60). -/
def SERIAL : Nat := 0x100004
/-- Object `DICT_REV` (R60). -/
def DICT_REV : Nat := 0x100005
/-- Object `STORE` (R60). -/
def STORE : Nat := 0x101001
/-- Object `ERASE` (R60). -/
def ERASE : Nat := 0x101002
/-- Object `STORE_VALID` (R60). -/
def STORE_VALID : Nat := 0x101003
/-- Object `STRAP_RAW` (R60). -/
def STRAP_RAW : Nat := 0x200001
/-- Object `GOV_BOOT_MS` (R60). -/
def GOV_BOOT_MS : Nat := 0x201001
/-- Object `GOV_TICKS` (R60). -/
def GOV_TICKS : Nat := 0x201002
/-- Object `GOV_WIN` (R60). -/
def GOV_WIN : Nat := 0x201003
/-- Object `SCARE_WIN` (R60). -/
def SCARE_WIN : Nat := 0x201004
/-- Object `LOCK_VIOL` (R60). -/
def LOCK_VIOL : Nat := 0xA01001
/-- Object `CFG_LOCK` (R60). -/
def CFG_LOCK : Nat := 0xB10001
/-- Object `NODE_ID` (R61). -/
def NODE_ID : Nat := 0x110001
/-- Object `MAC_ADDR` (R61). -/
def MAC_ADDR : Nat := 0x110002
/-- Object `PLCA_EN` (R61). -/
def PLCA_EN : Nat := 0x110003
/-- Object `PLCA_COORD` (R61). -/
def PLCA_COORD : Nat := 0x110004
/-- Object `PLCA_NODES` (R61). -/
def PLCA_NODES : Nat := 0x110005
/-- Object `NOTIFY_DEST` (R61). -/
def NOTIFY_DEST : Nat := 0x110006
/-- Object `SESSION_IDLE_MS` (R61). -/
def SESSION_IDLE_MS : Nat := 0x110007
/-- Object `BAP_RX_OK` (R61). -/
def BAP_RX_OK : Nat := 0x110008
/-- Object `BAP_DISCARD` (R61). -/
def BAP_DISCARD : Nat := 0x110009
/-- Object `AUTH_FAIL` (R61). -/
def AUTH_FAIL : Nat := 0x11000A
/-- Object `HMAC_KEY` number `i` (R61). -/
def HMAC_KEY (i : Nat) : Nat := 0x110020 + i
/-- Object `KEY_PRESENT` (R61). -/
def KEY_PRESENT : Nat := 0x110028
/-- Object `HANDLE` of instance `i` (R63). -/
def HANDLE (i : Nat) : Nat := 0x120001 + 256 * i
/-- Object `OPERATION` of instance `i` (R63). -/
def OPERATION (i : Nat) : Nat := 0x120002 + 256 * i
/-- Object `STATE` of instance `i` (R63). -/
def STATE (i : Nat) : Nat := 0x120003 + 256 * i
/-- Object `RESULT` of instance `i` (R63). -/
def RESULT (i : Nat) : Nat := 0x120004 + 256 * i
/-- Object `PROGRESS` of instance `i` (R63). -/
def PROGRESS (i : Nat) : Nat := 0x120005 + 256 * i
/-- Object `ORIGIN` of instance `i` (R63). -/
def ORIGIN (i : Nat) : Nat := 0x120006 + 256 * i
/-- Object `DONE_TS` of instance `i` (R63). -/
def DONE_TS (i : Nat) : Nat := 0x120007 + 256 * i
/-- Object `RELEASE` of instance `i` (R63). -/
def RELEASE (i : Nat) : Nat := 0x120008 + 256 * i
/-- Object `IRQ_MASK` (R78). -/
def IRQ_MASK : Nat := 0xA04001
/-- Object `IRQ_PEND` (R78). -/
def IRQ_PEND : Nat := 0xA04002
/-- Object `IRQ_EVT_MASK` (R78). -/
def IRQ_EVT_MASK : Nat := 0xA04003
/-- Object `GPIO_DIR` (R78). -/
def GPIO_DIR : Nat := 0xA04004
/-- Object `GPIO_OUT` (R78). -/
def GPIO_OUT : Nat := 0xA04005
/-- Object `GPIO_IN` (R78). -/
def GPIO_IN : Nat := 0xA04006
/-- Object `GPIO_PULL` (R78). -/
def GPIO_PULL : Nat := 0xA04007
/-- Object `PD_STATE` number `i` (R100). -/
def PD_STATE (i : Nat) : Nat := 0x240001 + i
/-- Object `PD_REQ` number `i` (R100). -/
def PD_REQ (i : Nat) : Nat := 0x240014 + i
/-- Object `PD_DRAIN_ABORT` number `i` (R100). -/
def PD_DRAIN_ABORT (i : Nat) : Nat := 0x240024 + i
/-- Object `PLL_MHZ` number `i` (R104). -/
def PLL_MHZ (i : Nat) : Nat := 0x250001 + i
/-- Object `PLL_REQ_MHZ_CPLL` (R104). -/
def PLL_REQ_MHZ_CPLL : Nat := 0x250011
/-- Object `PLL_REQ_MHZ_NPLL` (R104). -/
def PLL_REQ_MHZ_NPLL : Nat := 0x250012
/-- Object `PLL_REQ_MHZ_SPLL` (R104). -/
def PLL_REQ_MHZ_SPLL : Nat := 0x250013
/-- Object `PLL_REQ_MHZ_VPLL` (R104). -/
def PLL_REQ_MHZ_VPLL : Nat := 0x250014
/-- Object `PLL_LOCK` (R104). -/
def PLL_LOCK : Nat := 0x250020
/-- Object `FREQ_PENDING` (R104). -/
def FREQ_PENDING : Nat := 0x250021
/-- Object `RELOCK_COUNT` (R104). -/
def RELOCK_COUNT : Nat := 0x250022
/-- Object `RELOCK_BUCKETS` (R104). -/
def RELOCK_BUCKETS : Nat := 0x250023
/-- Object `FW_KEY_HASH` (R108). -/
def FW_KEY_HASH : Nat := 0x201005
/-- Object `FW_MIN_MAJOR` (R108). -/
def FW_MIN_MAJOR : Nat := 0x201006
/-- Object `WARM_RESET` (R108). -/
def WARM_RESET : Nat := 0x260001
/-- Object `ENGINE_RESET` (R108). -/
def ENGINE_RESET : Nat := 0x260002
/-- Object `CLIENT_RESET` (R108). -/
def CLIENT_RESET : Nat := 0x260003
/-- Object `RESET_CAUSE` (R108). -/
def RESET_CAUSE : Nat := 0x260004
/-- Object `BOOT_STATE` (R108). -/
def BOOT_STATE : Nat := 0x260005
/-- Object `BOOT_RESULT` (R108). -/
def BOOT_RESULT : Nat := 0x260006
/-- Object `FW_IMAGE` (R108). -/
def FW_IMAGE : Nat := 0x260010
/-- Object `FW_LOAD` (R108). -/
def FW_LOAD : Nat := 0x260011
/-- Object `DRAM_USABLE` (R132). -/
def DRAM_USABLE : Nat := 0x900002
/-- Object `INLINE_ECC_REQ` (R132). -/
def INLINE_ECC_REQ : Nat := 0x900003
/-- Object `INLINE_ECC` (R132). -/
def INLINE_ECC : Nat := 0x900004
/-- Object `MEM_TRAIN` (R132). -/
def MEM_TRAIN : Nat := 0x900005
/-- Object `MEM_RATE_REQ` (R132). -/
def MEM_RATE_REQ : Nat := 0x900006
/-- Object `MEM_RATE` (R132). -/
def MEM_RATE : Nat := 0x900007
/-- Object `ECC_CORR` (R132). -/
def ECC_CORR : Nat := 0x900008
/-- Object `ECC_UNCORR` (R132). -/
def ECC_UNCORR : Nat := 0x900009
/-- Object `LINK_ECC_CORR` (R132). -/
def LINK_ECC_CORR : Nat := 0x90000A
/-- Object `ECC_LAST_ADDR` (R132). -/
def ECC_LAST_ADDR : Nat := 0x90000B
/-- Object `MP_ECC_CORR` (R132). -/
def MP_ECC_CORR : Nat := 0x90000C
/-- Object `CMP_META_ERR` (R132). -/
def CMP_META_ERR : Nat := 0x90000D
/-- Object `LTR_NS` number `i` (R132). -/
def LTR_NS (i : Nat) : Nat := 0x900101 + i
/-- Object `SR_EN` (R132). -/
def SR_EN : Nat := 0x900105
/-- Object `SR_EXIT_NS` (R132). -/
def SR_EXIT_NS : Nat := 0x900106
/-- Object `SR_GUARD_NS` (R132). -/
def SR_GUARD_NS : Nat := 0x900107
/-- Object `SR_IDLE_NS` (R132). -/
def SR_IDLE_NS : Nat := 0x900108
/-- Object `SR_ENTRIES` (R132). -/
def SR_ENTRIES : Nat := 0x900109
/-- Object `SR_TIME_NS` (R132). -/
def SR_TIME_NS : Nat := 0x90010A
/-- Object `REPARTITION` (R132). -/
def REPARTITION : Nat := 0x900801
/-- Object `PART_KIND` of instance `i` (R132). -/
def PART_KIND (i : Nat) : Nat := 0x901001 + 256 * i
/-- Object `PART_FIRST_BANK` of instance `i` (R132). -/
def PART_FIRST_BANK (i : Nat) : Nat := 0x901002 + 256 * i
/-- Object `PART_BANKS` of instance `i` (R132). -/
def PART_BANKS (i : Nat) : Nat := 0x901003 + 256 * i
/-- Object `PART_OWNER` of instance `i` (R132). -/
def PART_OWNER (i : Nat) : Nat := 0x901004 + 256 * i
/-- Object `PART_ACT_KIND` of instance `i` (R132). -/
def PART_ACT_KIND (i : Nat) : Nat := 0x901011 + 256 * i
/-- Object `PART_ACT_FIRST_BANK` of instance `i` (R132). -/
def PART_ACT_FIRST_BANK (i : Nat) : Nat := 0x901012 + 256 * i
/-- Object `PART_ACT_BANKS` of instance `i` (R132). -/
def PART_ACT_BANKS (i : Nat) : Nat := 0x901013 + 256 * i
/-- Object `PART_ACT_OWNER` of instance `i` (R132). -/
def PART_ACT_OWNER (i : Nat) : Nat := 0x901014 + 256 * i
/-- Object `XLAT_ROOT` of instance `i` (R132). -/
def XLAT_ROOT (i : Nat) : Nat := 0x904001 + 256 * i
/-- Object `XLAT_EN` of instance `i` (R132). -/
def XLAT_EN (i : Nat) : Nat := 0x904002 + 256 * i
/-- Object `XLAT_INVAL` of instance `i` (R132). -/
def XLAT_INVAL (i : Nat) : Nat := 0x904003 + 256 * i
/-- Object `XLAT_FAULT_VA` of instance `i` (R132). -/
def XLAT_FAULT_VA (i : Nat) : Nat := 0x904004 + 256 * i
/-- Object `XLAT_FAULT_COUNT` of instance `i` (R132). -/
def XLAT_FAULT_COUNT (i : Nat) : Nat := 0x904005 + 256 * i
/-- Object `Q_OWNER` of instance `i` (R135). -/
def Q_OWNER (i : Nat) : Nat := 0x400001 + 256 * i
/-- Object `Q_ENABLE` of instance `i` (R135). -/
def Q_ENABLE (i : Nat) : Nat := 0x400002 + 256 * i
/-- Object `Q_RING_BASE` of instance `i` (R135). -/
def Q_RING_BASE (i : Nat) : Nat := 0x400003 + 256 * i
/-- Object `Q_RING_SLOTS` of instance `i` (R135). -/
def Q_RING_SLOTS (i : Nat) : Nat := 0x400004 + 256 * i
/-- Object `Q_VECTOR` of instance `i` (R135). -/
def Q_VECTOR (i : Nat) : Nat := 0x400005 + 256 * i
/-- Object `Q_TAIL` of instance `i` (R135). -/
def Q_TAIL (i : Nat) : Nat := 0x400006 + 256 * i
/-- Object `Q_STARTED` of instance `i` (R135). -/
def Q_STARTED (i : Nat) : Nat := 0x400007 + 256 * i
/-- Object `Q_DONE` of instance `i` (R135). -/
def Q_DONE (i : Nat) : Nat := 0x400008 + 256 * i
/-- Object `Q_LAST_HANDLE` of instance `i` (R135). -/
def Q_LAST_HANDLE (i : Nat) : Nat := 0x400009 + 256 * i
/-- Object `Q_STATE` of instance `i` (R135). -/
def Q_STATE (i : Nat) : Nat := 0x40000A + 256 * i
/-- Object `Q_DB_ERR` of instance `i` (R135). -/
def Q_DB_ERR (i : Nat) : Nat := 0x40000B + 256 * i
/-- Object `CL_CR_BASE` of instance `i` (R157). -/
def CL_CR_BASE (i : Nat) : Nat := 0x700001 + 256 * i
/-- Object `CL_CR_SLOTS` of instance `i` (R157). -/
def CL_CR_SLOTS (i : Nat) : Nat := 0x700002 + 256 * i
/-- Object `CL_CR_EN` of instance `i` (R157). -/
def CL_CR_EN (i : Nat) : Nat := 0x700003 + 256 * i
/-- Object `CL_CR_TAIL` of instance `i` (R157). -/
def CL_CR_TAIL (i : Nat) : Nat := 0x700004 + 256 * i
/-- Object `CL_CR_HEAD` of instance `i` (R157). -/
def CL_CR_HEAD (i : Nat) : Nat := 0x700005 + 256 * i
/-- Object `CL_CR_HELD` of instance `i` (R157). -/
def CL_CR_HELD (i : Nat) : Nat := 0x700006 + 256 * i
/-- Object `CL_CR_STALLS` of instance `i` (R157). -/
def CL_CR_STALLS (i : Nat) : Nat := 0x700007 + 256 * i
/-- Object `CL_SLUICE_BASE` of instance `i` (R157). -/
def CL_SLUICE_BASE (i : Nat) : Nat := 0x700008 + 256 * i
/-- Object `CL_SLUICE_COUNT` of instance `i` (R157). -/
def CL_SLUICE_COUNT (i : Nat) : Nat := 0x700009 + 256 * i
/-- Object `CL_FENCE_BASE` of instance `i` (R157). -/
def CL_FENCE_BASE (i : Nat) : Nat := 0x70000A + 256 * i
/-- Object `CL_FENCE_COUNT` of instance `i` (R157). -/
def CL_FENCE_COUNT (i : Nat) : Nat := 0x70000B + 256 * i
/-- Object `IS_KIND` of instance `i` (R167). -/
def IS_KIND (i : Nat) : Nat := 0x500001 + 256 * i
/-- Object `IS_EN` of instance `i` (R167). -/
def IS_EN (i : Nat) : Nat := 0x500002 + 256 * i
/-- Object `IS_OWNER` of instance `i` (R167). -/
def IS_OWNER (i : Nat) : Nat := 0x500003 + 256 * i
/-- Object `IS_PORT` of instance `i` (R167). -/
def IS_PORT (i : Nat) : Nat := 0x500004 + 256 * i
/-- Object `IS_VC` of instance `i` (R167). -/
def IS_VC (i : Nat) : Nat := 0x500005 + 256 * i
/-- Object `IS_FMT` of instance `i` (R167). -/
def IS_FMT (i : Nat) : Nat := 0x500006 + 256 * i
/-- Object `IS_PACK` of instance `i` (R167). -/
def IS_PACK (i : Nat) : Nat := 0x500007 + 256 * i
/-- Object `IS_WIDTH` of instance `i` (R167). -/
def IS_WIDTH (i : Nat) : Nat := 0x500008 + 256 * i
/-- Object `IS_HEIGHT` of instance `i` (R167). -/
def IS_HEIGHT (i : Nat) : Nat := 0x500009 + 256 * i
/-- Object `IS_PITCH` of instance `i` (R167). -/
def IS_PITCH (i : Nat) : Nat := 0x50000A + 256 * i
/-- Object `IS_BUF_VA` of instance `i` (R167). -/
def IS_BUF_VA (i : Nat) : Nat := 0x50000B + 256 * i
/-- Object `IS_NBUF` of instance `i` (R167). -/
def IS_NBUF (i : Nat) : Nat := 0x50000C + 256 * i
/-- Object `IS_BUF_STRIDE` of instance `i` (R167). -/
def IS_BUF_STRIDE (i : Nat) : Nat := 0x50000D + 256 * i
/-- Object `IS_REC_VA` of instance `i` (R167). -/
def IS_REC_VA (i : Nat) : Nat := 0x50000E + 256 * i
/-- Object `IS_FLAG` of instance `i` (R167). -/
def IS_FLAG (i : Nat) : Nat := 0x50000F + 256 * i
/-- Object `IS_REL_FLAG` of instance `i` (R167). -/
def IS_REL_FLAG (i : Nat) : Nat := 0x500010 + 256 * i
/-- Object `IS_FRAMES` of instance `i` (R167). -/
def IS_FRAMES (i : Nat) : Nat := 0x500011 + 256 * i
/-- Object `IS_DROPPED` of instance `i` (R167). -/
def IS_DROPPED (i : Nat) : Nat := 0x500012 + 256 * i
/-- Object `IS_BAD` of instance `i` (R167). -/
def IS_BAD (i : Nat) : Nat := 0x500013 + 256 * i
/-- Object `CSI_EN` of instance `i` (R168). -/
def CSI_EN (i : Nat) : Nat := 0x500030 + 256 * i
/-- Object `CSI_LANES` of instance `i` (R168). -/
def CSI_LANES (i : Nat) : Nat := 0x500031 + 256 * i
/-- Object `CSI_STATE` of instance `i` (R168). -/
def CSI_STATE (i : Nat) : Nat := 0x500032 + 256 * i
/-- Object `CSI_ECC_CORR` of instance `i` (R168). -/
def CSI_ECC_CORR (i : Nat) : Nat := 0x500033 + 256 * i
/-- Object `CSI_ECC_UNCORR` of instance `i` (R168). -/
def CSI_ECC_UNCORR (i : Nat) : Nat := 0x500034 + 256 * i
/-- Object `CSI_CRC_ERR` of instance `i` (R168). -/
def CSI_CRC_ERR (i : Nat) : Nat := 0x500035 + 256 * i
/-- Object `CSI_DT_DISCARD` of instance `i` (R168). -/
def CSI_DT_DISCARD (i : Nat) : Nat := 0x500036 + 256 * i
/-- Object `CL_SLOWDOWN_MAX` of instance `i` (R191). -/
def CL_SLOWDOWN_MAX (i : Nat) : Nat := 0x70000C + 256 * i
/-- Object `CL_JOBS_LC` of instance `i` (R191). -/
def CL_JOBS_LC (i : Nat) : Nat := 0x70000D + 256 * i
/-- Object `CL_JOBS_BE` of instance `i` (R191). -/
def CL_JOBS_BE (i : Nat) : Nat := 0x70000E + 256 * i
/-- Object `WHEEL_IMAGE` (R192). -/
def WHEEL_IMAGE : Nat := 0x220001
/-- Object `WHEEL_LOAD` (R192). -/
def WHEEL_LOAD : Nat := 0x220002
/-- Object `WHEEL_UNLOAD` (R192). -/
def WHEEL_UNLOAD : Nat := 0x220003
/-- Object `WHEEL_ACTIVE` (R192). -/
def WHEEL_ACTIVE : Nat := 0x220101
/-- Object `WHEEL_LEN` (R192). -/
def WHEEL_LEN : Nat := 0x220102
/-- Object `WHEEL_TICK_NS` (R192). -/
def WHEEL_TICK_NS : Nat := 0x220103
/-- Object `ADM_FAIL` (R192). -/
def ADM_FAIL : Nat := 0x220104
/-- Object `ADM_PEAK` (R192). -/
def ADM_PEAK : Nat := 0x220105
/-- Object `OVERRUN_COUNT` (R192). -/
def OVERRUN_COUNT : Nat := 0x220106
/-- Object `WIN_IDLE_COUNT` (R192). -/
def WIN_IDLE_COUNT : Nat := 0x220107
/-- Object `UNBOUND_COUNT` (R192). -/
def UNBOUND_COUNT : Nat := 0x220108
/-- Object `SHORT_TICKS` (R192). -/
def SHORT_TICKS : Nat := 0x220109
/-- Object `LAST_OVERRUN` (R192). -/
def LAST_OVERRUN : Nat := 0x22010A
/-- Object `SPILL_EXHAUST` (R192). -/
def SPILL_EXHAUST : Nat := 0x22010B
/-- Object `Q_PRIO` number `i` (R192). -/
def Q_PRIO (i : Nat) : Nat := 0x230001 + i
/-- Object `FLAG_SUMMARY` (R210). -/
def FLAG_SUMMARY : Nat := 0xC00001
/-- Object `JOBS_NX` (R210). -/
def JOBS_NX : Nat := 0xC00002
/-- Object `JOBS_UF` (R210). -/
def JOBS_UF : Nat := 0xC00003
/-- Object `JOBS_OF` (R210). -/
def JOBS_OF : Nat := 0xC00004
/-- Object `JOBS_DZ` (R210). -/
def JOBS_DZ : Nat := 0xC00005
/-- Object `JOBS_NV` (R210). -/
def JOBS_NV : Nat := 0xC00006
/-- Object `JOBS_SAT` (R210). -/
def JOBS_SAT : Nat := 0xC00007
/-- Object `FLAG_EVENT_MASK` (R210). -/
def FLAG_EVENT_MASK : Nat := 0xC00008
/-- Object `NQ_PRESENT` (R230). -/
def NQ_PRESENT : Nat := 0x310001
/-- Object `LAYERS_RUN` (R230). -/
def LAYERS_RUN : Nat := 0x310002
/-- Object `WINO_LAYERS` (R230). -/
def WINO_LAYERS : Nat := 0x310003
/-- Object `DESC_FAULTS` (R230). -/
def DESC_FAULTS : Nat := 0x310004
/-- Object `LAST_DESC_FAULT` (R230). -/
def LAST_DESC_FAULT : Nat := 0x310005
/-- Object `DIB_BANDS` (R230). -/
def DIB_BANDS : Nat := 0x310006
/-- Object `DIB_BUSY` (R230). -/
def DIB_BUSY : Nat := 0x310007
/-- Object `SV_ENABLE` of instance `i` (R242). -/
def SV_ENABLE (i : Nat) : Nat := 0x318001 + 256 * i
/-- Object `SV_QUEUE` of instance `i` (R242). -/
def SV_QUEUE (i : Nat) : Nat := 0x318002 + 256 * i
/-- Object `SV_QUARTER` of instance `i` (R242). -/
def SV_QUARTER (i : Nat) : Nat := 0x318003 + 256 * i
/-- Object `SV_NET_VA` of instance `i` (R242). -/
def SV_NET_VA (i : Nat) : Nat := 0x318004 + 256 * i
/-- Object `SV_NET_COUNT` of instance `i` (R242). -/
def SV_NET_COUNT (i : Nat) : Nat := 0x318005 + 256 * i
/-- Object `SV_POOL_VA` of instance `i` (R242). -/
def SV_POOL_VA (i : Nat) : Nat := 0x318006 + 256 * i
/-- Object `SV_POOL_PAGES` of instance `i` (R242). -/
def SV_POOL_PAGES (i : Nat) : Nat := 0x318007 + 256 * i
/-- Object `SV_STATE_VA` of instance `i` (R242). -/
def SV_STATE_VA (i : Nat) : Nat := 0x318008 + 256 * i
/-- Object `SV_PAGE_TOKENS` of instance `i` (R242). -/
def SV_PAGE_TOKENS (i : Nat) : Nat := 0x318009 + 256 * i
/-- Object `SV_SEQ_PAGES` of instance `i` (R242). -/
def SV_SEQ_PAGES (i : Nat) : Nat := 0x31800A + 256 * i
/-- Object `SV_MAX_ROWS` of instance `i` (R242). -/
def SV_MAX_ROWS (i : Nat) : Nat := 0x31800B + 256 * i
/-- Object `SV_RESERVE` of instance `i` (R242). -/
def SV_RESERVE (i : Nat) : Nat := 0x31800C + 256 * i
/-- Object `SV_KV_BYTES` of instance `i` (R242). -/
def SV_KV_BYTES (i : Nat) : Nat := 0x31800D + 256 * i
/-- Object `SV_IN_BYTES` of instance `i` (R242). -/
def SV_IN_BYTES (i : Nat) : Nat := 0x31800E + 256 * i
/-- Object `SV_OUT_BYTES` of instance `i` (R242). -/
def SV_OUT_BYTES (i : Nat) : Nat := 0x31800F + 256 * i
/-- Object `SV_FREE_PAGES` of instance `i` (R242). -/
def SV_FREE_PAGES (i : Nat) : Nat := 0x318010 + 256 * i
/-- Object `SV_RUNNING` of instance `i` (R242). -/
def SV_RUNNING (i : Nat) : Nat := 0x318011 + 256 * i
/-- Object `SV_PARKED` of instance `i` (R242). -/
def SV_PARKED (i : Nat) : Nat := 0x318012 + 256 * i
/-- Object `SV_STEPS` of instance `i` (R242). -/
def SV_STEPS (i : Nat) : Nat := 0x318013 + 256 * i
/-- Object `SV_DEFERRED` of instance `i` (R242). -/
def SV_DEFERRED (i : Nat) : Nat := 0x318014 + 256 * i
/-- Object `SV_PARKS` of instance `i` (R242). -/
def SV_PARKS (i : Nat) : Nat := 0x318015 + 256 * i
/-- Object `KC_KEY_HASH` number `i` (R271). -/
def KC_KEY_HASH (i : Nat) : Nat := 0x300001 + i
/-- Object `CODE_STORE_FREE` (R271). -/
def CODE_STORE_FREE : Nat := 0x300005
/-- Object `PARTIAL_RENDERS` (R271). -/
def PARTIAL_RENDERS : Nat := 0x300006
/-- Object `BIN_PEAK` (R271). -/
def BIN_PEAK : Nat := 0x300007
/-- Object `SPARSE_FALLBACKS` (R271). -/
def SPARSE_FALLBACKS : Nat := 0x300008
/-- Object `KC_REFUSED` (R271). -/
def KC_REFUSED : Nat := 0x300009
/-- Object `KC_LAST_REFUSE` (R271). -/
def KC_LAST_REFUSE : Nat := 0x30000A
/-- Object `PASSES` (R271). -/
def PASSES : Nat := 0x30000B
/-- Object `CL_KSLOTS` of instance `i` (R271). -/
def CL_KSLOTS (i : Nat) : Nat := 0x70000F + 256 * i
/-- Object `VX_UNITS` (R296). -/
def VX_UNITS : Nat := 0x320001
/-- Object `VX_TRACKED` (R296). -/
def VX_TRACKED : Nat := 0x320002
/-- Object `VX_LOST` (R296). -/
def VX_LOST : Nat := 0x320003
/-- Object `VS_WIDTH` of instance `i` (R296). -/
def VS_WIDTH (i : Nat) : Nat := 0x321001 + 256 * i
/-- Object `VS_HEIGHT` of instance `i` (R296). -/
def VS_HEIGHT (i : Nat) : Nat := 0x321002 + 256 * i
/-- Object `VS_FMT` of instance `i` (R296). -/
def VS_FMT (i : Nat) : Nat := 0x321003 + 256 * i
/-- Object `VS_PYR_VA` of instance `i` (R296). -/
def VS_PYR_VA (i : Nat) : Nat := 0x321004 + 256 * i
/-- Object `VS_MAX_DIST` of instance `i` (R296). -/
def VS_MAX_DIST (i : Nat) : Nat := 0x321005 + 256 * i
/-- Object `VS_FLAG` of instance `i` (R296). -/
def VS_FLAG (i : Nat) : Nat := 0x321006 + 256 * i
/-- Object `VS_OWNER` of instance `i` (R296). -/
def VS_OWNER (i : Nat) : Nat := 0x321007 + 256 * i
/-- Object `VS_REF_SLOT` of instance `i` (R296). -/
def VS_REF_SLOT (i : Nat) : Nat := 0x321008 + 256 * i
/-- Object `VS_REF_VALID` of instance `i` (R296). -/
def VS_REF_VALID (i : Nat) : Nat := 0x321009 + 256 * i
/-- Object `SLV_PIVOT_FLOOR` (R297). -/
def SLV_PIVOT_FLOOR : Nat := 0x330001
/-- Object `SLV_Z_MIN` (R297). -/
def SLV_Z_MIN : Nat := 0x330002
/-- Object `SLV_SOLVES` (R297). -/
def SLV_SOLVES : Nat := 0x330003
/-- Object `SLV_MISSED` (R297). -/
def SLV_MISSED : Nat := 0x330004
/-- Object `SLV_ILL` (R297). -/
def SLV_ILL : Nat := 0x330005
/-- Object `SLV_LAST_MISS` (R297). -/
def SLV_LAST_MISS : Nat := 0x330006
/-- Object `ST_STATE` of instance `i` (R297). -/
def ST_STATE (i : Nat) : Nat := 0x331001 + 256 * i
/-- Object `ST_OWNER` of instance `i` (R297). -/
def ST_OWNER (i : Nat) : Nat := 0x331002 + 256 * i
/-- Object `ST_POSES` of instance `i` (R297). -/
def ST_POSES (i : Nat) : Nat := 0x331003 + 256 * i
/-- Object `ST_POINTS` of instance `i` (R297). -/
def ST_POINTS (i : Nat) : Nat := 0x331004 + 256 * i
/-- Object `ST_OBS` of instance `i` (R297). -/
def ST_OBS (i : Nat) : Nat := 0x331005 + 256 * i
/-- Object `ST_PAIRS` of instance `i` (R297). -/
def ST_PAIRS (i : Nat) : Nat := 0x331006 + 256 * i
/-- Object `ST_CLEAR` of instance `i` (R297). -/
def ST_CLEAR (i : Nat) : Nat := 0x331007 + 256 * i
/-- Object `MR_EN` of instance `i` (R309). -/
def MR_EN (i : Nat) : Nat := 0x600040 + 256 * i
/-- Object `MR_LEAD` of instance `i` (R309). -/
def MR_LEAD (i : Nat) : Nat := 0x600041 + 256 * i
/-- Object `MR_SLOTS` of instance `i` (R309). -/
def MR_SLOTS (i : Nat) : Nat := 0x600042 + 256 * i
/-- Object `MR_PART` of instance `i` (R309). -/
def MR_PART (i : Nat) : Nat := 0x600043 + 256 * i
/-- Object `MR_OFFSET` of instance `i` (R309). -/
def MR_OFFSET (i : Nat) : Nat := 0x600044 + 256 * i
/-- Object `MR_PITCH` of instance `i` (R309). -/
def MR_PITCH (i : Nat) : Nat := 0x600045 + 256 * i
/-- Object `MR_LATCH` of instance `i` (R309). -/
def MR_LATCH (i : Nat) : Nat := 0x600046 + 256 * i
/-- Object `MR_POSE_FLAG` of instance `i` (R309). -/
def MR_POSE_FLAG (i : Nat) : Nat := 0x600047 + 256 * i
/-- Object `MR_POSE_VA0` of instance `i` (R309). -/
def MR_POSE_VA0 (i : Nat) : Nat := 0x600048 + 256 * i
/-- Object `MR_POSE_VA1` of instance `i` (R309). -/
def MR_POSE_VA1 (i : Nat) : Nat := 0x600049 + 256 * i
/-- Object `MR_SRC_POSE_VA` of instance `i` (R309). -/
def MR_SRC_POSE_VA (i : Nat) : Nat := 0x60004A + 256 * i
/-- Object `MR_FOCAL` of instance `i` (R309). -/
def MR_FOCAL (i : Nat) : Nat := 0x60004B + 256 * i
/-- Object `MR_FB_VALID` of instance `i` (R309). -/
def MR_FB_VALID (i : Nat) : Nat := 0x60004C + 256 * i
/-- Object `MR_FB_VA` of instance `i` (R309). -/
def MR_FB_VA (i : Nat) : Nat := 0x60004D + 256 * i
/-- Object `MR_FB_W` of instance `i` (R309). -/
def MR_FB_W (i : Nat) : Nat := 0x60004E + 256 * i
/-- Object `MR_FB_H` of instance `i` (R309). -/
def MR_FB_H (i : Nat) : Nat := 0x60004F + 256 * i
/-- Object `MR_FB_PITCH` of instance `i` (R309). -/
def MR_FB_PITCH (i : Nat) : Nat := 0x600050 + 256 * i
/-- Object `MR_FB_POSE_VA` of instance `i` (R309). -/
def MR_FB_POSE_VA (i : Nat) : Nat := 0x600051 + 256 * i
/-- Object `MR_FALLBACKS` of instance `i` (R309). -/
def MR_FALLBACKS (i : Nat) : Nat := 0x600052 + 256 * i
/-- Object `MR_BLANK_BANDS` of instance `i` (R309). -/
def MR_BLANK_BANDS (i : Nat) : Nat := 0x600053 + 256 * i
/-- Object `MR_POSE_STALE` of instance `i` (R309). -/
def MR_POSE_STALE (i : Nat) : Nat := 0x600054 + 256 * i
/-- Object `MR_LAST_LATE` of instance `i` (R309). -/
def MR_LAST_LATE (i : Nat) : Nat := 0x600055 + 256 * i
/-- Object `LATE_POLICY` of instance `i` (R309). -/
def LATE_POLICY (i : Nat) : Nat := 0x601040 + 256 * i
/-- Object `LATE_COUNT` of instance `i` (R309). -/
def LATE_COUNT (i : Nat) : Nat := 0x601041 + 256 * i
/-- Object `PIPE_IF` of instance `i` (R330). -/
def PIPE_IF (i : Nat) : Nat := 0x600001 + 256 * i
/-- Object `PIPE_EN` of instance `i` (R330). -/
def PIPE_EN (i : Nat) : Nat := 0x600002 + 256 * i
/-- Object `PIPE_OWNER` of instance `i` (R330). -/
def PIPE_OWNER (i : Nat) : Nat := 0x600003 + 256 * i
/-- Object `UNDERRUN_MODE` of instance `i` (R330). -/
def UNDERRUN_MODE (i : Nat) : Nat := 0x600004 + 256 * i
/-- Object `DSI_PHY` of instance `i` (R330). -/
def DSI_PHY (i : Nat) : Nat := 0x600005 + 256 * i
/-- Object `DSI_MODE` of instance `i` (R330). -/
def DSI_MODE (i : Nat) : Nat := 0x600006 + 256 * i
/-- Object `LINK_LANES_MAX` of instance `i` (R330). -/
def LINK_LANES_MAX (i : Nat) : Nat := 0x600007 + 256 * i
/-- Object `LINK_RATE_MAX` of instance `i` (R330). -/
def LINK_RATE_MAX (i : Nat) : Nat := 0x600008 + 256 * i
/-- Object `BPC` of instance `i` (R330). -/
def BPC (i : Nat) : Nat := 0x600009 + 256 * i
/-- Object `H_ACTIVE` of instance `i` (R330). -/
def H_ACTIVE (i : Nat) : Nat := 0x60000A + 256 * i
/-- Object `H_FP` of instance `i` (R330). -/
def H_FP (i : Nat) : Nat := 0x60000B + 256 * i
/-- Object `H_SYNC` of instance `i` (R330). -/
def H_SYNC (i : Nat) : Nat := 0x60000C + 256 * i
/-- Object `H_BP` of instance `i` (R330). -/
def H_BP (i : Nat) : Nat := 0x60000D + 256 * i
/-- Object `V_ACTIVE` of instance `i` (R330). -/
def V_ACTIVE (i : Nat) : Nat := 0x60000E + 256 * i
/-- Object `V_FP` of instance `i` (R330). -/
def V_FP (i : Nat) : Nat := 0x60000F + 256 * i
/-- Object `V_SYNC` of instance `i` (R330). -/
def V_SYNC (i : Nat) : Nat := 0x600010 + 256 * i
/-- Object `V_BP` of instance `i` (R330). -/
def V_BP (i : Nat) : Nat := 0x600011 + 256 * i
/-- Object `PCLK_KHZ` of instance `i` (R330). -/
def PCLK_KHZ (i : Nat) : Nat := 0x600012 + 256 * i
/-- Object `SYNC_POL` of instance `i` (R330). -/
def SYNC_POL (i : Nat) : Nat := 0x600013 + 256 * i
/-- Object `BG_COLOR` of instance `i` (R330). -/
def BG_COLOR (i : Nat) : Nat := 0x600014 + 256 * i
/-- Object `LINK_TRAIN` of instance `i` (R330). -/
def LINK_TRAIN (i : Nat) : Nat := 0x600015 + 256 * i
/-- Object `LINK_STATE` of instance `i` (R330). -/
def LINK_STATE (i : Nat) : Nat := 0x600016 + 256 * i
/-- Object `LINK_LANES` of instance `i` (R330). -/
def LINK_LANES (i : Nat) : Nat := 0x600017 + 256 * i
/-- Object `LINK_RATE` of instance `i` (R330). -/
def LINK_RATE (i : Nat) : Nat := 0x600018 + 256 * i
/-- Object `FRAME_COUNT` of instance `i` (R330). -/
def FRAME_COUNT (i : Nat) : Nat := 0x600019 + 256 * i
/-- Object `FREEZE` of instance `i` (R330). -/
def FREEZE (i : Nat) : Nat := 0x60001A + 256 * i
/-- Object `UNDERRUN_PIX` of instance `i` (R330). -/
def UNDERRUN_PIX (i : Nat) : Nat := 0x60001B + 256 * i
/-- Object `UNDERRUN_FRAMES` of instance `i` (R330). -/
def UNDERRUN_FRAMES (i : Nat) : Nat := 0x60001C + 256 * i
/-- Object `OUTCHK_EN` of instance `i` (R330). -/
def OUTCHK_EN (i : Nat) : Nat := 0x60001D + 256 * i
/-- Object `OUTCHK_FRAMES` of instance `i` (R330). -/
def OUTCHK_FRAMES (i : Nat) : Nat := 0x60001E + 256 * i
/-- Object `OUTCHK_MISMATCH` of instance `i` (R330). -/
def OUTCHK_MISMATCH (i : Nat) : Nat := 0x60001F + 256 * i
/-- Object `OUTCHK_LAST` of instance `i` (R330). -/
def OUTCHK_LAST (i : Nat) : Nat := 0x600020 + 256 * i
/-- Object `OUTCHK_SKIPPED` of instance `i` (R330). -/
def OUTCHK_SKIPPED (i : Nat) : Nat := 0x600021 + 256 * i
/-- Object `PALETTE` of instance `i` (R330). -/
def PALETTE (i : Nat) : Nat := 0x600022 + 256 * i
/-- Object `HPD` of instance `i` (R330). -/
def HPD (i : Nat) : Nat := 0x600023 + 256 * i
/-- Object `L_STATE` of instance `i` (R330). -/
def L_STATE (i : Nat) : Nat := 0x601001 + 256 * i
/-- Object `L_VA` of instance `i` (R330). -/
def L_VA (i : Nat) : Nat := 0x601002 + 256 * i
/-- Object `L_RECT` of instance `i` (R330). -/
def L_RECT (i : Nat) : Nat := 0x601003 + 256 * i
/-- Object `CAS_ROLE` (R350). -/
def CAS_ROLE : Nat := 0x800001
/-- Object `CAS_STATE` (R350). -/
def CAS_STATE : Nat := 0x800002
/-- Object `CAS_MEMBERS` (R350). -/
def CAS_MEMBERS : Nat := 0x800003
/-- Object `CAS_EXPECT` (R350). -/
def CAS_EXPECT : Nat := 0x800004
/-- Object `CAS_FORM` (R350). -/
def CAS_FORM : Nat := 0x800005
/-- Object `CAS_DISSOLVE` (R350). -/
def CAS_DISSOLVE : Nat := 0x800006
/-- Object `CAS_TICK_OFFSET` (R350). -/
def CAS_TICK_OFFSET : Nat := 0x800007
/-- Object `CAS_MASTER` (R350). -/
def CAS_MASTER : Nat := 0x800008
/-- Object `HOLD_TICKS` (R350). -/
def HOLD_TICKS : Nat := 0x800009
/-- Object `CAS_HOLD_STATE` (R350). -/
def CAS_HOLD_STATE : Nat := 0x80000A
/-- Object `CAS_SLIP` (R350). -/
def CAS_SLIP : Nat := 0x80000B
/-- Object `CAS_DOMAIN_LOSS` (R350). -/
def CAS_DOMAIN_LOSS : Nat := 0x80000C
/-- Object `CAS_ROUTE` number `i` (R350). -/
def CAS_ROUTE (i : Nat) : Nat := 0x800101 + i
/-- Object `LP_EN` of instance `i` (R350). -/
def LP_EN (i : Nat) : Nat := 0x801001 + 256 * i
/-- Object `LP_STATE` of instance `i` (R350). -/
def LP_STATE (i : Nat) : Nat := 0x801002 + 256 * i
/-- Object `LP_CRC_ERR` of instance `i` (R350). -/
def LP_CRC_ERR (i : Nat) : Nat := 0x801003 + 256 * i
/-- Object `LP_REPLAYS` of instance `i` (R350). -/
def LP_REPLAYS (i : Nat) : Nat := 0x801004 + 256 * i
/-- Object `LP_DOWN_COUNT` of instance `i` (R350). -/
def LP_DOWN_COUNT (i : Nat) : Nat := 0x801005 + 256 * i
/-- Object `LP_TX_BYTES` of instance `i` (R350). -/
def LP_TX_BYTES (i : Nat) : Nat := 0x801006 + 256 * i
/-- Object `LP_RX_BYTES` of instance `i` (R350). -/
def LP_RX_BYTES (i : Nat) : Nat := 0x801007 + 256 * i
/-- Object `LP_PEER` of instance `i` (R350). -/
def LP_PEER (i : Nat) : Nat := 0x801008 + 256 * i
/-- Object `SEAM_EN` of instance `i` (R350). -/
def SEAM_EN (i : Nat) : Nat := 0x802001 + 256 * i
/-- Object `SEAM_VA` of instance `i` (R350). -/
def SEAM_VA (i : Nat) : Nat := 0x802002 + 256 * i
/-- Object `SEAM_BYTES` of instance `i` (R350). -/
def SEAM_BYTES (i : Nat) : Nat := 0x802003 + 256 * i
/-- Object `SEAM_SRC` of instance `i` (R350). -/
def SEAM_SRC (i : Nat) : Nat := 0x802004 + 256 * i
/-- Object `SEAM_FLAG` of instance `i` (R350). -/
def SEAM_FLAG (i : Nat) : Nat := 0x802005 + 256 * i
/-- Object `SEAM_DL_BUCKET` of instance `i` (R350). -/
def SEAM_DL_BUCKET (i : Nat) : Nat := 0x802006 + 256 * i
/-- Object `SEAM_OK` of instance `i` (R350). -/
def SEAM_OK (i : Nat) : Nat := 0x802007 + 256 * i
/-- Object `SEAM_LATE` of instance `i` (R350). -/
def SEAM_LATE (i : Nat) : Nat := 0x802008 + 256 * i
/-- Object `GOV_STATE` (R369). -/
def GOV_STATE : Nat := 0xB00001
/-- Object `GOV_KEY` (R369). -/
def GOV_KEY : Nat := 0xB00002
/-- Object `GOV_EXPIRIES` (R369). -/
def GOV_EXPIRIES : Nat := 0xB00003
/-- Object `GOV_EARLY` (R369). -/
def GOV_EARLY : Nat := 0xB00004
/-- Object `GOV_LAST_TS` (R369). -/
def GOV_LAST_TS : Nat := 0xB00005
/-- Object `GOV_HOLD` (R369). -/
def GOV_HOLD : Nat := 0xB00006
/-- Object `SCARE_EN` (R369). -/
def SCARE_EN : Nat := 0xB01001
/-- Object `SCARE_KEY` (R369). -/
def SCARE_KEY : Nat := 0xB01002
/-- Object `SCARE_PERIOD_MS` (R369). -/
def SCARE_PERIOD_MS : Nat := 0xB01003
/-- Object `SCARE_DISABLE` (R369). -/
def SCARE_DISABLE : Nat := 0xB01004
/-- Object `SCARE_LOCK` (R369). -/
def SCARE_LOCK : Nat := 0xB01005
/-- Object `SCARE_EXPIRIES` (R369). -/
def SCARE_EXPIRIES : Nat := 0xB01006
/-- Object `SCARE_STAGE` (R369). -/
def SCARE_STAGE : Nat := 0xB01007
/-- Object `SCARE_IRQ_PIN` (R369). -/
def SCARE_IRQ_PIN : Nat := 0xB01008
/-- Object `EVT_NEXT` (R369). -/
def EVT_NEXT : Nat := 0xA00001
/-- Object `EVT_LOG` (R369). -/
def EVT_LOG : Nat := 0xA00002
/-- Object `EVT_ACK` (R369). -/
def EVT_ACK : Nat := 0xA00003
/-- Object `EVT_LOST` (R369). -/
def EVT_LOST : Nat := 0xA00004
/-- Object `EVT_NOTIFY_MASK` (R369). -/
def EVT_NOTIFY_MASK : Nat := 0xA00005
/-- Object `RECOV_EPOCH` number `i` (R369). -/
def RECOV_EPOCH (i : Nat) : Nat := 0xA02001 + i
/-- Object `RECOV_DROPPED` (R369). -/
def RECOV_DROPPED : Nat := 0xA02008
/-- Object `POISON_LAST` (R369). -/
def POISON_LAST : Nat := 0xA02009
/-- Object `POISON_COUNT` (R369). -/
def POISON_COUNT : Nat := 0xA0200A
/-- Object `SELFTEST` (R381). -/
def SELFTEST : Nat := 0xA03001
/-- Object `SELFTEST_SEL` (R381). -/
def SELFTEST_SEL : Nat := 0xA03002
/-- Object `BIST_MP_FAIL` (R381). -/
def BIST_MP_FAIL : Nat := 0xA03003
/-- Object `BIST_DRAM_FAIL` (R381). -/
def BIST_DRAM_FAIL : Nat := 0xA03004
/-- Object `BIST_FIRST_ADDR` (R381). -/
def BIST_FIRST_ADDR : Nat := 0xA03005
/-- Object `BIST_RUNS` (R381). -/
def BIST_RUNS : Nat := 0xA03006
/-- Object `BSCAN_IR` (R381). -/
def BSCAN_IR : Nat := 0xA03007

end Od

/-- Rows of index 1000: sub-index range, type, access class, constant default, reset domain, value range. -/
def rows1000 : List Row :=
  [
    ⟨0x01, 0x01, .u32, .ro, 0x740000, .never, .all⟩,
    ⟨0x02, 0x02, .u8, .ro, 0xA1, .never, .all⟩,
    ⟨0x03, 0x03, .u32, .ro, 0x0, .warm, .all⟩,
    ⟨0x04, 0x04, .u64, .ro, 0x0, .never, .all⟩,
    ⟨0x05, 0x05, .u16, .ro, 0x100, .never, .all⟩]

/-- Rows of index 1010: sub-index range, type, access class, constant default, reset domain, value range. -/
def rows1010 : List Row :=
  [
    ⟨0x01, 0x01, .u16, .wo, 0x0, .never, .oneOf [0x5A7E]⟩,
    ⟨0x02, 0x02, .u16, .wo, 0x0, .never, .oneOf [0x0DEF]⟩,
    ⟨0x03, 0x03, .bool, .ro, 0x0, .warm, .all⟩]

/-- Rows of index 1100: sub-index range, type, access class, constant default, reset domain, value range. -/
def rows1100 : List Row :=
  [
    ⟨0x01, 0x01, .u8, .rw, 0x0, .warm, .upTo 0 0xFE⟩,
    ⟨0x02, 0x02, .u64, .ro, 0x27400000001, .never, .all⟩,
    ⟨0x03, 0x03, .bool, .rw, 0x1, .warm, .all⟩,
    ⟨0x04, 0x04, .bool, .ro, 0x0, .powerOn, .all⟩,
    ⟨0x05, 0x05, .u8, .rw, 0x8, .warm, .upTo 1 8⟩,
    ⟨0x06, 0x06, .u8, .rw, 0xFF, .warm, .all⟩,
    ⟨0x07, 0x07, .u16, .rw, 0x2710, .warm, .upTo 100 60000⟩,
    ⟨0x08, 0x08, .u32, .rc, 0x0, .warm, .all⟩,
    ⟨0x09, 0x09, .u32, .rc, 0x0, .warm, .all⟩,
    ⟨0x0A, 0x0A, .u32, .rc, 0x0, .warm, .all⟩,
    ⟨0x20, 0x27, .dom, .wo1, 0x0, .never, .all⟩,
    ⟨0x28, 0x28, .u8, .ro, 0x0, .never, .all⟩]

/-- Rows of index 12ss: sub-index range, type, access class, constant default, reset domain, value range. -/
def rows12SS : List Row :=
  [
    ⟨0x01, 0x01, .u32, .ro, 0x0, .warm, .all⟩,
    ⟨0x02, 0x02, .u32, .ro, 0x0, .warm, .all⟩,
    ⟨0x03, 0x03, .u8, .ro, 0x0, .warm, .all⟩,
    ⟨0x04, 0x04, .u16, .ro, 0x0, .warm, .all⟩,
    ⟨0x05, 0x05, .u8, .ro, 0x0, .warm, .all⟩,
    ⟨0x06, 0x06, .u16, .ro, 0x0, .warm, .all⟩,
    ⟨0x07, 0x07, .u64, .ro, 0x0, .warm, .all⟩,
    ⟨0x08, 0x08, .u32, .wo, 0x0, .warm, .all⟩]

/-- Rows of index 2000: sub-index range, type, access class, constant default, reset domain, value range. -/
def rows2000 : List Row :=
  [
    ⟨0x01, 0x01, .u16, .ro, 0x0, .powerOn, .all⟩]

/-- Rows of index 2010: sub-index range, type, access class, constant default, reset domain, value range. -/
def rows2010 : List Row :=
  [
    ⟨0x01, 0x01, .u16, .ro, 0x3E8, .never, .all⟩,
    ⟨0x02, 0x02, .u8, .ro, 0x4, .never, .all⟩,
    ⟨0x03, 0x03, .u8, .ro, 0x3, .never, .all⟩,
    ⟨0x04, 0x04, .u8, .ro, 0x4, .never, .all⟩,
    ⟨0x05, 0x05, .dom, .ro, 0x0, .never, .all⟩,
    ⟨0x06, 0x06, .u8, .ro, 0x0, .never, .all⟩]

/-- Rows of index 2100: sub-index range, type, access class, constant default, reset domain, value range. -/
def rows2100 : List Row :=
  [
    ⟨0x01, 0x01, .u8, .rw, 0x2, .warm, .upTo 0 2⟩,
    ⟨0x02, 0x02, .bool, .rw, 0x0, .warm, .all⟩,
    ⟨0x03, 0x03, .u64, .ro, 0x0, .warm, .all⟩,
    ⟨0x04, 0x04, .u8, .ro, 0x0, .warm, .all⟩,
    ⟨0x05, 0x05, .u32, .rw, 0x7F2815, .warm, .upTo 2500000 50000000⟩,
    ⟨0x06, 0x06, .u32, .ro, 0x0, .warm, .all⟩,
    ⟨0x07, 0x07, .u64, .ro, 0x0, .warm, .all⟩,
    ⟨0x08, 0x08, .u32, .rc, 0x0, .warm, .all⟩,
    ⟨0x09, 0x09, .u32, .rc, 0x0, .warm, .all⟩,
    ⟨0x0A, 0x0A, .bool, .ro, 0x0, .warm, .all⟩,
    ⟨0x0B, 0x0B, .bool, .rw, 0x1, .warm, .all⟩,
    ⟨0x0C, 0x0C, .u32, .rc, 0x0, .warm, .all⟩,
    ⟨0x0D, 0x0D, .u64, .ro, 0x0, .powerOn, .all⟩]

/-- Rows of index 2200: sub-index range, type, access class, constant default, reset domain, value range. -/
def rows2200 : List Row :=
  [
    ⟨0x01, 0x01, .dom, .rw, 0x0, .warm, .all⟩,
    ⟨0x02, 0x02, .u16, .wo, 0x0, .never, .oneOf [0x3E11]⟩,
    ⟨0x03, 0x03, .u16, .wo, 0x0, .never, .oneOf [0x0FF0]⟩]

/-- Rows of index 2201: sub-index range, type, access class, constant default, reset domain, value range. -/
def rows2201 : List Row :=
  [
    ⟨0x01, 0x01, .bool, .ro, 0x0, .warm, .all⟩,
    ⟨0x02, 0x02, .u16, .ro, 0x0, .warm, .all⟩,
    ⟨0x03, 0x03, .u32, .ro, 0x0, .warm, .all⟩,
    ⟨0x04, 0x04, .u32, .ro, 0x0, .warm, .all⟩,
    ⟨0x05, 0x05, .u16, .ro, 0x0, .warm, .all⟩,
    ⟨0x06, 0x06, .u32, .rc, 0x0, .warm, .all⟩,
    ⟨0x07, 0x07, .u32, .rc, 0x0, .warm, .all⟩,
    ⟨0x08, 0x08, .u32, .rc, 0x0, .warm, .all⟩,
    ⟨0x09, 0x09, .u32, .rc, 0x0, .warm, .all⟩,
    ⟨0x0A, 0x0A, .u32, .ro, 0x0, .warm, .all⟩,
    ⟨0x0B, 0x0B, .u32, .rc, 0x0, .warm, .all⟩]

/-- Rows of index 2300: sub-index range, type, access class, constant default, reset domain, value range. -/
def rows2300 : List Row :=
  [
    ⟨0x01, 0x80, .u8, .rw, 0x0, .warm, .upTo 0 3⟩]

/-- Rows of index 2400: sub-index range, type, access class, constant default, reset domain, value range. -/
def rows2400 : List Row :=
  [
    ⟨0x01, 0x0B, .u8, .ro, 0x0, .warm, .all⟩,
    ⟨0x14, 0x1B, .bool, .rw, 0x1, .warm, .all⟩,
    ⟨0x24, 0x2B, .u32, .rc, 0x0, .warm, .all⟩]

/-- Rows of index 2500: sub-index range, type, access class, constant default, reset domain, value range. -/
def rows2500 : List Row :=
  [
    ⟨0x01, 0x09, .u16, .ro, 0x0, .warm, .all⟩,
    ⟨0x11, 0x11, .u16, .rw, 0x4B0, .warm, .upTo 400 1200⟩,
    ⟨0x12, 0x12, .u16, .rw, 0x578, .warm, .upTo 400 1400⟩,
    ⟨0x13, 0x13, .u16, .rw, 0x44C, .warm, .upTo 400 1100⟩,
    ⟨0x14, 0x14, .u16, .rw, 0x3E8, .warm, .upTo 400 1000⟩,
    ⟨0x20, 0x20, .u16, .ro, 0x0, .warm, .all⟩,
    ⟨0x21, 0x21, .u16, .ro, 0x0, .warm, .all⟩,
    ⟨0x22, 0x22, .u32, .rc, 0x0, .warm, .all⟩,
    ⟨0x23, 0x23, .u8, .ro, 0x1, .warm, .all⟩]

/-- Rows of index 2600: sub-index range, type, access class, constant default, reset domain, value range. -/
def rows2600 : List Row :=
  [
    ⟨0x01, 0x01, .u16, .wo, 0x0, .never, .oneOf [0x7A3C]⟩,
    ⟨0x02, 0x02, .u8, .wo, 0x0, .never, .upTo 0 5⟩,
    ⟨0x03, 0x03, .u8, .wo, 0x0, .never, .upTo 1 63⟩,
    ⟨0x04, 0x04, .u8, .ro, 0x0, .never, .all⟩,
    ⟨0x05, 0x05, .u8, .ro, 0x0, .warm, .all⟩,
    ⟨0x06, 0x06, .u16, .ro, 0x0, .warm, .all⟩,
    ⟨0x10, 0x10, .dom, .wo, 0x0, .warm, .all⟩,
    ⟨0x11, 0x11, .u16, .wo, 0x0, .never, .oneOf [0x10AD]⟩]

/-- Rows of index 3000: sub-index range, type, access class, constant default, reset domain, value range. -/
def rows3000 : List Row :=
  [
    ⟨0x01, 0x04, .dom, .rwl, 0x0, .powerOn, .all⟩,
    ⟨0x05, 0x05, .u32, .ro, 0x400000, .engine, .all⟩,
    ⟨0x06, 0x06, .u32, .rc, 0x0, .engine, .all⟩,
    ⟨0x07, 0x07, .u32, .rc, 0x0, .engine, .all⟩,
    ⟨0x08, 0x08, .u32, .rc, 0x0, .engine, .all⟩,
    ⟨0x09, 0x09, .u32, .rc, 0x0, .engine, .all⟩,
    ⟨0x0A, 0x0A, .u32, .ro, 0x0, .engine, .all⟩,
    ⟨0x0B, 0x0B, .u64, .ro, 0x0, .engine, .all⟩]

/-- Rows of index 3100: sub-index range, type, access class, constant default, reset domain, value range. -/
def rows3100 : List Row :=
  [
    ⟨0x01, 0x01, .u8, .ro, 0x1F, .never, .all⟩,
    ⟨0x02, 0x02, .u64, .ro, 0x0, .engine, .all⟩,
    ⟨0x03, 0x03, .u32, .rc, 0x0, .engine, .all⟩,
    ⟨0x04, 0x04, .u32, .rc, 0x0, .engine, .all⟩,
    ⟨0x05, 0x05, .u32, .ro, 0x0, .engine, .all⟩,
    ⟨0x06, 0x06, .u32, .rc, 0x0, .engine, .all⟩,
    ⟨0x07, 0x07, .bool, .ro, 0x0, .engine, .all⟩]

/-- Rows of index 318s: sub-index range, type, access class, constant default, reset domain, value range. -/
def rows318S : List Row :=
  [
    ⟨0x01, 0x01, .bool, .rw, 0x0, .engine, .all⟩,
    ⟨0x02, 0x02, .u8, .rw, 0x10, .warm, .all⟩,
    ⟨0x03, 0x03, .u8, .rw, 0x0, .warm, .upTo 0 3⟩,
    ⟨0x04, 0x04, .u64, .rw, 0x0, .warm, .mult 128⟩,
    ⟨0x05, 0x05, .u16, .rw, 0x1, .warm, .upTo 1 4096⟩,
    ⟨0x06, 0x06, .u64, .rw, 0x0, .warm, .mult 65536⟩,
    ⟨0x07, 0x07, .u32, .rw, 0x0, .warm, .upTo 1 262144⟩,
    ⟨0x08, 0x08, .u64, .rw, 0x0, .warm, .all⟩,
    ⟨0x09, 0x09, .u16, .rw, 0x10, .warm, .upTo 1 65535⟩,
    ⟨0x0A, 0x0A, .u16, .rw, 0x100, .warm, .upTo 1 4096⟩,
    ⟨0x0B, 0x0B, .u16, .rw, 0x200, .warm, .upTo 1 4096⟩,
    ⟨0x0C, 0x0C, .u32, .rw, 0x0, .warm, .all⟩,
    ⟨0x0D, 0x0D, .u32, .ro, 0x0, .warm, .all⟩,
    ⟨0x0E, 0x0E, .u32, .ro, 0x0, .warm, .all⟩,
    ⟨0x0F, 0x0F, .u32, .ro, 0x0, .warm, .all⟩,
    ⟨0x10, 0x10, .u32, .ro, 0x0, .engine, .all⟩,
    ⟨0x11, 0x11, .u16, .ro, 0x0, .engine, .all⟩,
    ⟨0x12, 0x12, .u16, .ro, 0x0, .engine, .all⟩,
    ⟨0x13, 0x13, .u64, .ro, 0x0, .engine, .all⟩,
    ⟨0x14, 0x14, .u32, .rc, 0x0, .engine, .all⟩,
    ⟨0x15, 0x15, .u32, .rc, 0x0, .engine, .all⟩]

/-- Rows of index 3200: sub-index range, type, access class, constant default, reset domain, value range. -/
def rows3200 : List Row :=
  [
    ⟨0x01, 0x01, .u64, .ro, 0x0, .engine, .all⟩,
    ⟨0x02, 0x02, .u32, .rc, 0x0, .engine, .all⟩,
    ⟨0x03, 0x03, .u32, .rc, 0x0, .engine, .all⟩]

/-- Rows of index 321v: sub-index range, type, access class, constant default, reset domain, value range. -/
def rows321V : List Row :=
  [
    ⟨0x01, 0x01, .u16, .rw, 0x500, .warm, .upTo 64 4096⟩,
    ⟨0x02, 0x02, .u16, .rw, 0x2D0, .warm, .upTo 64 4096⟩,
    ⟨0x03, 0x03, .u8, .rw, 0x3, .warm, .oneOf [1, 3]⟩,
    ⟨0x04, 0x04, .u64, .rw, 0x0, .warm, .all⟩,
    ⟨0x05, 0x05, .u16, .rw, 0x40, .warm, .upTo 0 256⟩,
    ⟨0x06, 0x06, .u16, .rw, 0xFFFF, .warm, .upToOr 0 255 0xFFFF⟩,
    ⟨0x07, 0x07, .u8, .rw, 0x0, .warm, .upToOr 0 63 0xFF⟩,
    ⟨0x08, 0x08, .u8, .ro, 0x0, .engine, .all⟩,
    ⟨0x09, 0x09, .bool, .ro, 0x0, .engine, .all⟩]

/-- Rows of index 3300: sub-index range, type, access class, constant default, reset domain, value range. -/
def rows3300 : List Row :=
  [
    ⟨0x01, 0x01, .f32, .rw, 0x35800000, .warm, .f32Unit⟩,
    ⟨0x02, 0x02, .f32, .rw, 0x3A83126F, .warm, .f32Pos⟩,
    ⟨0x03, 0x03, .u32, .rc, 0x0, .engine, .all⟩,
    ⟨0x04, 0x04, .u32, .rc, 0x0, .engine, .all⟩,
    ⟨0x05, 0x05, .u32, .rc, 0x0, .engine, .all⟩,
    ⟨0x06, 0x06, .u32, .ro, 0x0, .engine, .all⟩]

/-- Rows of index 331k: sub-index range, type, access class, constant default, reset domain, value range. -/
def rows331K : List Row :=
  [
    ⟨0x01, 0x01, .u8, .ro, 0x0, .engine, .all⟩,
    ⟨0x02, 0x02, .u8, .ro, 0x0, .engine, .all⟩,
    ⟨0x03, 0x03, .u8, .ro, 0x0, .engine, .all⟩,
    ⟨0x04, 0x04, .u16, .ro, 0x0, .engine, .all⟩,
    ⟨0x05, 0x05, .u32, .ro, 0x0, .engine, .all⟩,
    ⟨0x06, 0x06, .u16, .ro, 0x0, .engine, .all⟩,
    ⟨0x07, 0x07, .bool, .wo, 0x0, .never, .all⟩]

/-- Rows of index 40qq: sub-index range, type, access class, constant default, reset domain, value range. -/
def rows40QQ : List Row :=
  [
    ⟨0x01, 0x01, .u8, .rw, 0x0, .warm, .upTo 0 63⟩,
    ⟨0x02, 0x02, .bool, .rw, 0x0, .warm, .all⟩,
    ⟨0x03, 0x03, .u64, .rw, 0x0, .warm, .mult 4096⟩,
    ⟨0x04, 0x04, .u16, .rw, 0x100, .warm, .pow2 16 2048⟩,
    ⟨0x05, 0x05, .u8, .rw, 0x1, .warm, .upTo 1 63⟩,
    ⟨0x06, 0x06, .u16, .ro, 0x0, .warm, .all⟩,
    ⟨0x07, 0x07, .u16, .ro, 0x0, .warm, .all⟩,
    ⟨0x08, 0x08, .u16, .ro, 0x0, .warm, .all⟩,
    ⟨0x09, 0x09, .u32, .ro, 0x0, .warm, .all⟩,
    ⟨0x0A, 0x0A, .u8, .ro, 0x0, .warm, .all⟩,
    ⟨0x0B, 0x0B, .u32, .rc, 0x0, .warm, .all⟩]

/-- Rows of index 500p: sub-index range, type, access class, constant default, reset domain, value range. -/
def rows500P : List Row :=
  [
    ⟨0x30, 0x30, .bool, .rw, 0x0, .warm, .all⟩,
    ⟨0x31, 0x31, .u8, .rw, 0x4, .warm, .oneOf [1, 2, 4]⟩,
    ⟨0x32, 0x32, .u8, .ro, 0x0, .warm, .all⟩,
    ⟨0x33, 0x33, .u32, .rc, 0x0, .warm, .all⟩,
    ⟨0x34, 0x34, .u32, .rc, 0x0, .warm, .all⟩,
    ⟨0x35, 0x35, .u32, .rc, 0x0, .warm, .all⟩,
    ⟨0x36, 0x36, .u32, .rc, 0x0, .warm, .all⟩]

/-- Rows of index 500s: sub-index range, type, access class, constant default, reset domain, value range. -/
def rows500S : List Row :=
  [
    ⟨0x01, 0x01, .u8, .rw, 0x0, .warm, .upTo 0 3⟩,
    ⟨0x02, 0x02, .bool, .rw, 0x0, .warm, .all⟩,
    ⟨0x03, 0x03, .u8, .rw, 0x0, .warm, .upTo 0 63⟩,
    ⟨0x04, 0x04, .u8, .rw, 0x0, .warm, .upTo 0 3⟩,
    ⟨0x05, 0x05, .u8, .rw, 0x0, .warm, .upTo 0 3⟩,
    ⟨0x06, 0x06, .u8, .rw, 0x2B, .warm, .all⟩,
    ⟨0x07, 0x07, .u8, .rw, 0x1, .warm, .upTo 0 1⟩,
    ⟨0x08, 0x08, .u16, .rw, 0x500, .warm, .upTo 1 8192⟩,
    ⟨0x09, 0x09, .u16, .rw, 0x2D0, .warm, .upTo 1 8192⟩,
    ⟨0x0A, 0x0A, .u32, .rw, 0xA00, .warm, .all⟩,
    ⟨0x0B, 0x0B, .u64, .rw, 0x0, .warm, .mult 65536⟩,
    ⟨0x0C, 0x0C, .u8, .rw, 0x3, .warm, .upTo 2 16⟩,
    ⟨0x0D, 0x0D, .u32, .ro, 0x0, .warm, .all⟩,
    ⟨0x0E, 0x0E, .u64, .rw, 0x0, .warm, .mult 32⟩,
    ⟨0x0F, 0x0F, .u16, .rw, 0xFFFF, .warm, .upToOr 0 255 0xFFFF⟩,
    ⟨0x10, 0x10, .u16, .rw, 0xFFFF, .warm, .upToOr 0 255 0xFFFF⟩,
    ⟨0x11, 0x11, .u32, .ro, 0x0, .warm, .all⟩,
    ⟨0x12, 0x12, .u32, .rc, 0x0, .warm, .all⟩,
    ⟨0x13, 0x13, .u32, .rc, 0x0, .warm, .all⟩]

/-- Rows of index 600p: sub-index range, type, access class, constant default, reset domain, value range. -/
def rows600P : List Row :=
  [
    ⟨0x40, 0x40, .bool, .rw, 0x0, .warm, .all⟩,
    ⟨0x41, 0x41, .u8, .rw, 0x2, .warm, .upTo 1 4⟩,
    ⟨0x42, 0x42, .u8, .rw, 0x4, .warm, .upTo 3 16⟩,
    ⟨0x43, 0x43, .u8, .rw, 0x0, .warm, .upTo 0 15⟩,
    ⟨0x44, 0x44, .u32, .rw, 0x0, .warm, .mult 256⟩,
    ⟨0x45, 0x45, .u32, .ro, 0x0, .warm, .all⟩,
    ⟨0x46, 0x46, .bool, .rw, 0x0, .warm, .all⟩,
    ⟨0x47, 0x47, .u16, .rw, 0xFFFF, .warm, .upToOr 0 255 0xFFFF⟩,
    ⟨0x48, 0x48, .u64, .rw, 0x0, .warm, .all⟩,
    ⟨0x49, 0x49, .u64, .rw, 0x0, .warm, .all⟩,
    ⟨0x4A, 0x4A, .u64, .rw, 0x0, .warm, .all⟩,
    ⟨0x4B, 0x4B, .f32, .rw, 0x447A0000, .warm, .f32Pos⟩,
    ⟨0x4C, 0x4C, .bool, .rw, 0x0, .warm, .all⟩,
    ⟨0x4D, 0x4D, .u64, .rw, 0x0, .warm, .mult 256⟩,
    ⟨0x4E, 0x4E, .u16, .rw, 0x500, .warm, .upTo 64 8192⟩,
    ⟨0x4F, 0x4F, .u16, .rw, 0x2D0, .warm, .upTo 64 8192⟩,
    ⟨0x50, 0x50, .u16, .rw, 0xA0, .warm, .all⟩,
    ⟨0x51, 0x51, .u64, .rw, 0x0, .warm, .all⟩,
    ⟨0x52, 0x52, .u32, .rc, 0x0, .warm, .all⟩,
    ⟨0x53, 0x53, .u32, .rc, 0x0, .warm, .all⟩,
    ⟨0x54, 0x54, .u32, .rc, 0x0, .warm, .all⟩,
    ⟨0x55, 0x55, .u32, .ro, 0x0, .warm, .all⟩,
    ⟨0x01, 0x01, .u8, .rw, 0x0, .warm, .upTo 0 6⟩,
    ⟨0x02, 0x02, .bool, .rw, 0x0, .warm, .all⟩] ++
  [
    ⟨0x03, 0x03, .u8, .rw, 0x0, .warm, .upToOr 0 63 0xFF⟩,
    ⟨0x04, 0x04, .u8, .rw, 0xFF, .warm, .upTo 0 1⟩,
    ⟨0x05, 0x05, .u8, .rw, 0x0, .warm, .upTo 0 1⟩,
    ⟨0x06, 0x06, .u8, .rw, 0x0, .warm, .upTo 0 1⟩,
    ⟨0x07, 0x07, .u8, .rw, 0x4, .warm, .upTo 1 4⟩,
    ⟨0x08, 0x08, .u16, .rw, 0x1FA4, .warm, .all⟩,
    ⟨0x09, 0x09, .u8, .rw, 0x8, .warm, .oneOf [8, 10]⟩,
    ⟨0x0A, 0x0A, .u16, .rw, 0x0, .warm, .all⟩,
    ⟨0x0B, 0x0B, .u16, .rw, 0x0, .warm, .all⟩,
    ⟨0x0C, 0x0C, .u16, .rw, 0x0, .warm, .all⟩,
    ⟨0x0D, 0x0D, .u16, .rw, 0x0, .warm, .all⟩,
    ⟨0x0E, 0x0E, .u16, .rw, 0x0, .warm, .all⟩,
    ⟨0x0F, 0x0F, .u16, .rw, 0x0, .warm, .all⟩,
    ⟨0x10, 0x10, .u16, .rw, 0x0, .warm, .all⟩,
    ⟨0x11, 0x11, .u16, .rw, 0x0, .warm, .all⟩,
    ⟨0x12, 0x12, .u32, .rw, 0x0, .warm, .upTo 25000 1400000⟩,
    ⟨0x13, 0x13, .u8, .rw, 0x0, .warm, .bits 0x03⟩,
    ⟨0x14, 0x14, .u32, .rw, 0x0, .warm, .bits 0x3FFFFFFF⟩,
    ⟨0x15, 0x15, .u16, .wo, 0x0, .never, .oneOf [0x71A1]⟩,
    ⟨0x16, 0x16, .u8, .ro, 0x0, .warm, .all⟩,
    ⟨0x17, 0x17, .u8, .ro, 0x0, .warm, .all⟩,
    ⟨0x18, 0x18, .u16, .ro, 0x0, .warm, .all⟩,
    ⟨0x19, 0x19, .u64, .ro, 0x0, .warm, .all⟩,
    ⟨0x1A, 0x1A, .bool, .rw, 0x0, .warm, .all⟩] ++
  [
    ⟨0x1B, 0x1B, .u32, .rc, 0x0, .warm, .all⟩,
    ⟨0x1C, 0x1C, .u32, .rc, 0x0, .warm, .all⟩,
    ⟨0x1D, 0x1D, .bool, .rw, 0x0, .warm, .all⟩,
    ⟨0x1E, 0x1E, .u32, .rc, 0x0, .warm, .all⟩,
    ⟨0x1F, 0x1F, .u32, .rc, 0x0, .warm, .all⟩,
    ⟨0x20, 0x20, .u64, .ro, 0x0, .warm, .all⟩,
    ⟨0x21, 0x21, .u32, .rc, 0x0, .warm, .all⟩,
    ⟨0x22, 0x22, .dom, .rw, 0x0, .warm, .all⟩,
    ⟨0x23, 0x23, .bool, .ro, 0x0, .warm, .all⟩]

/-- Rows of index 601x: sub-index range, type, access class, constant default, reset domain, value range. -/
def rows601X : List Row :=
  [
    ⟨0x40, 0x40, .u8, .rw, 0x0, .warm, .upTo 0 1⟩,
    ⟨0x41, 0x41, .u32, .rc, 0x0, .warm, .all⟩,
    ⟨0x01, 0x01, .u64, .ro, 0x0, .warm, .all⟩,
    ⟨0x02, 0x02, .u64, .ro, 0x0, .warm, .all⟩,
    ⟨0x03, 0x03, .u64, .ro, 0x0, .warm, .all⟩]

/-- Rows of index 70nn: sub-index range, type, access class, constant default, reset domain, value range. -/
def rows70NN : List Row :=
  [
    ⟨0x01, 0x01, .u64, .rw, 0x0, .client, .mult 4096⟩,
    ⟨0x02, 0x02, .u32, .rw, 0x400, .client, .pow2 64 65536⟩,
    ⟨0x03, 0x03, .bool, .rw, 0x0, .client, .all⟩,
    ⟨0x04, 0x04, .u32, .ro, 0x0, .client, .all⟩,
    ⟨0x05, 0x05, .u32, .rw, 0x0, .client, .all⟩,
    ⟨0x06, 0x06, .u8, .ro, 0x0, .client, .all⟩,
    ⟨0x07, 0x07, .u32, .rc, 0x0, .client, .all⟩,
    ⟨0x08, 0x08, .u8, .rw, 0x0, .warm, .all⟩,
    ⟨0x09, 0x09, .u16, .rw, 0x0, .warm, .upTo 0 256⟩,
    ⟨0x0A, 0x0A, .u16, .rw, 0x0, .warm, .upTo 0 1023⟩,
    ⟨0x0B, 0x0B, .u16, .rw, 0x0, .warm, .upTo 0 1024⟩,
    ⟨0x0C, 0x0C, .u16, .rc, 0x0, .client, .all⟩,
    ⟨0x0D, 0x0D, .u64, .ro, 0x0, .client, .all⟩,
    ⟨0x0E, 0x0E, .u64, .ro, 0x0, .client, .all⟩,
    ⟨0x0F, 0x0F, .u16, .ro, 0x0, .engine, .all⟩]

/-- Rows of index 8000: sub-index range, type, access class, constant default, reset domain, value range. -/
def rows8000 : List Row :=
  [
    ⟨0x01, 0x01, .bool, .ro, 0x0, .warm, .all⟩,
    ⟨0x02, 0x02, .u8, .ro, 0x0, .warm, .all⟩,
    ⟨0x03, 0x03, .u8, .ro, 0x0, .warm, .all⟩,
    ⟨0x04, 0x04, .u8, .rw, 0x0, .warm, .all⟩,
    ⟨0x05, 0x05, .u16, .wo, 0x0, .never, .oneOf [0x6A5C]⟩,
    ⟨0x06, 0x06, .u16, .wo, 0x0, .never, .oneOf [0xD150]⟩,
    ⟨0x07, 0x07, .u64, .ro, 0x0, .warm, .all⟩,
    ⟨0x08, 0x08, .u8, .ro, 0xFF, .warm, .all⟩,
    ⟨0x09, 0x09, .u8, .rw, 0x8, .warm, .all⟩,
    ⟨0x0A, 0x0A, .u8, .ro, 0x0, .warm, .all⟩,
    ⟨0x0B, 0x0B, .u32, .rc, 0x0, .warm, .all⟩,
    ⟨0x0C, 0x0C, .u32, .rc, 0x0, .warm, .all⟩]

/-- Rows of index 8001: sub-index range, type, access class, constant default, reset domain, value range. -/
def rows8001 : List Row :=
  [
    ⟨0x01, 0x08, .u8, .ro, 0x3, .warm, .all⟩]

/-- Rows of index 801x: sub-index range, type, access class, constant default, reset domain, value range. -/
def rows801X : List Row :=
  [
    ⟨0x01, 0x01, .bool, .rw, 0x1, .warm, .all⟩,
    ⟨0x02, 0x02, .u8, .ro, 0x0, .warm, .all⟩,
    ⟨0x03, 0x03, .u16, .rc, 0x0, .warm, .all⟩,
    ⟨0x04, 0x04, .u32, .rc, 0x0, .warm, .all⟩,
    ⟨0x05, 0x05, .u32, .rc, 0x0, .warm, .all⟩,
    ⟨0x06, 0x06, .u64, .ro, 0x0, .warm, .all⟩,
    ⟨0x07, 0x07, .u64, .ro, 0x0, .warm, .all⟩,
    ⟨0x08, 0x08, .u8, .ro, 0xFF, .warm, .all⟩]

/-- Rows of index 802k: sub-index range, type, access class, constant default, reset domain, value range. -/
def rows802K : List Row :=
  [
    ⟨0x01, 0x01, .bool, .rw, 0x0, .warm, .all⟩,
    ⟨0x02, 0x02, .u64, .rw, 0x0, .warm, .mult 256⟩,
    ⟨0x03, 0x03, .u32, .rw, 0x0, .warm, .mult 256⟩,
    ⟨0x04, 0x04, .u8, .rw, 0x0, .warm, .all⟩,
    ⟨0x05, 0x05, .u16, .rw, 0xFFFF, .warm, .upToOr 0 255 0xFFFF⟩,
    ⟨0x06, 0x06, .u8, .rw, 0xFF, .warm, .all⟩,
    ⟨0x07, 0x07, .u32, .rc, 0x0, .warm, .all⟩,
    ⟨0x08, 0x08, .u32, .rc, 0x0, .warm, .all⟩]

/-- Rows of index 9000: sub-index range, type, access class, constant default, reset domain, value range. -/
def rows9000 : List Row :=
  [
    ⟨0x02, 0x02, .u64, .ro, 0x3FE000000, .powerOn, .all⟩,
    ⟨0x03, 0x03, .bool, .rw, 0x0, .powerOn, .all⟩,
    ⟨0x04, 0x04, .bool, .ro, 0x0, .powerOn, .all⟩,
    ⟨0x05, 0x05, .u16, .wo, 0x0, .never, .oneOf [0x7121]⟩,
    ⟨0x06, 0x06, .u8, .rw, 0x0, .warm, .upTo 0 3⟩,
    ⟨0x07, 0x07, .u8, .ro, 0x0, .warm, .all⟩,
    ⟨0x08, 0x08, .u32, .rc, 0x0, .powerOn, .all⟩,
    ⟨0x09, 0x09, .u32, .rc, 0x0, .powerOn, .all⟩,
    ⟨0x0A, 0x0A, .u32, .rc, 0x0, .powerOn, .all⟩,
    ⟨0x0B, 0x0B, .u64, .ro, 0x0, .powerOn, .all⟩,
    ⟨0x0C, 0x0C, .u32, .rc, 0x0, .powerOn, .all⟩,
    ⟨0x0D, 0x0D, .u32, .rc, 0x0, .warm, .all⟩]

/-- Rows of index 9001: sub-index range, type, access class, constant default, reset domain, value range. -/
def rows9001 : List Row :=
  [
    ⟨0x01, 0x04, .u32, .ro, 0xFFFFFFFF, .warm, .all⟩,
    ⟨0x05, 0x05, .bool, .rw, 0x1, .warm, .all⟩,
    ⟨0x06, 0x06, .u32, .ro, 0xBB8, .never, .all⟩,
    ⟨0x07, 0x07, .u32, .rw, 0x3E8, .warm, .upTo 0 100000⟩,
    ⟨0x08, 0x08, .u32, .rw, 0x7D0, .warm, .upTo 500 100000⟩,
    ⟨0x09, 0x09, .u32, .rc, 0x0, .warm, .all⟩,
    ⟨0x0A, 0x0A, .u64, .ro, 0x0, .warm, .all⟩]

/-- Rows of index 9008: sub-index range, type, access class, constant default, reset domain, value range. -/
def rows9008 : List Row :=
  [
    ⟨0x01, 0x01, .u16, .wo, 0x0, .never, .oneOf [0x5917]⟩]

/-- Rows of index 9010+p: sub-index range, type, access class, constant default, reset domain, value range. -/
def rows9010P : List Row :=
  [
    ⟨0x01, 0x01, .u8, .rw, 0x0, .warm, .all⟩,
    ⟨0x02, 0x02, .u8, .rw, 0x0, .warm, .upTo 0 31⟩,
    ⟨0x03, 0x03, .u8, .rw, 0x0, .warm, .all⟩,
    ⟨0x04, 0x04, .u8, .rw, 0x0, .warm, .all⟩,
    ⟨0x11, 0x11, .u8, .ro, 0x0, .warm, .all⟩,
    ⟨0x12, 0x12, .u8, .ro, 0x0, .warm, .all⟩,
    ⟨0x13, 0x13, .u8, .ro, 0x0, .warm, .all⟩,
    ⟨0x14, 0x14, .u8, .ro, 0x0, .warm, .all⟩]

/-- Rows of index 9040+n: sub-index range, type, access class, constant default, reset domain, value range. -/
def rows9040N : List Row :=
  [
    ⟨0x01, 0x01, .u64, .rw, 0x0, .client, .multBelow 32768 0x10000000000⟩,
    ⟨0x02, 0x02, .bool, .rw, 0x0, .client, .all⟩,
    ⟨0x03, 0x03, .bool, .wo, 0x0, .never, .all⟩,
    ⟨0x04, 0x04, .u64, .ro, 0x0, .client, .all⟩,
    ⟨0x05, 0x05, .u32, .rc, 0x0, .client, .all⟩]

/-- Rows of index A000: sub-index range, type, access class, constant default, reset domain, value range. -/
def rowsA000 : List Row :=
  [
    ⟨0x01, 0x01, .u32, .ro, 0x0, .powerOn, .all⟩,
    ⟨0x02, 0x02, .dom, .ro, 0x0, .powerOn, .all⟩,
    ⟨0x03, 0x03, .u32, .rw, 0x0, .powerOn, .all⟩,
    ⟨0x04, 0x04, .u32, .rc, 0x0, .powerOn, .all⟩,
    ⟨0x05, 0x05, .u8, .rw, 0x7, .warm, .all⟩]

/-- Rows of index A010: sub-index range, type, access class, constant default, reset domain, value range. -/
def rowsA010 : List Row :=
  [
    ⟨0x01, 0x01, .u32, .rc, 0x0, .powerOn, .all⟩]

/-- Rows of index A020: sub-index range, type, access class, constant default, reset domain, value range. -/
def rowsA020 : List Row :=
  [
    ⟨0x01, 0x07, .u16, .ro, 0x0, .warm, .all⟩,
    ⟨0x08, 0x08, .u32, .rc, 0x0, .warm, .all⟩,
    ⟨0x09, 0x09, .u64, .ro, 0x0, .warm, .all⟩,
    ⟨0x0A, 0x0A, .u32, .rc, 0x0, .warm, .all⟩]

/-- Rows of index A030: sub-index range, type, access class, constant default, reset domain, value range. -/
def rowsA030 : List Row :=
  [
    ⟨0x01, 0x01, .u16, .wo, 0x0, .never, .oneOf [0x7E57]⟩,
    ⟨0x02, 0x02, .u8, .rw, 0x3, .warm, .bits 0x07⟩,
    ⟨0x03, 0x03, .u32, .ro, 0x0, .powerOn, .all⟩,
    ⟨0x04, 0x04, .u8, .ro, 0x0, .powerOn, .all⟩,
    ⟨0x05, 0x05, .u64, .ro, 0x0, .powerOn, .all⟩,
    ⟨0x06, 0x06, .u32, .rc, 0x0, .powerOn, .all⟩,
    ⟨0x07, 0x07, .u8, .ro, 0x2, .never, .all⟩]

/-- Rows of index A040: sub-index range, type, access class, constant default, reset domain, value range. -/
def rowsA040 : List Row :=
  [
    ⟨0x01, 0x01, .u8, .rw, 0x0, .warm, .bits 0x1F⟩,
    ⟨0x02, 0x02, .u8, .rc, 0x0, .warm, .all⟩,
    ⟨0x03, 0x03, .u8, .rw, 0x0, .warm, .all⟩,
    ⟨0x04, 0x04, .u32, .rw, 0x0, .warm, .all⟩,
    ⟨0x05, 0x05, .u32, .rw, 0x0, .warm, .all⟩,
    ⟨0x06, 0x06, .u32, .ro, 0x0, .warm, .all⟩,
    ⟨0x07, 0x07, .u32, .rw, 0xFFFFFFFF, .warm, .all⟩]

/-- Rows of index B000: sub-index range, type, access class, constant default, reset domain, value range. -/
def rowsB000 : List Row :=
  [
    ⟨0x01, 0x01, .u8, .ro, 0x0, .warm, .all⟩,
    ⟨0x02, 0x02, .u16, .wo, 0x0, .never, .all⟩,
    ⟨0x03, 0x03, .u32, .rc, 0x0, .powerOn, .all⟩,
    ⟨0x04, 0x04, .u32, .rc, 0x0, .powerOn, .all⟩,
    ⟨0x05, 0x05, .u64, .ro, 0x0, .warm, .all⟩,
    ⟨0x06, 0x06, .bool, .ro, 0x0, .warm, .all⟩]

/-- Rows of index B010: sub-index range, type, access class, constant default, reset domain, value range. -/
def rowsB010 : List Row :=
  [
    ⟨0x01, 0x01, .bool, .ro, 0x0, .warm, .all⟩,
    ⟨0x02, 0x02, .u16, .wo, 0x0, .never, .all⟩,
    ⟨0x03, 0x03, .u32, .rw, 0x3E8, .warm, .upTo 10 60000⟩,
    ⟨0x04, 0x04, .u16, .wo, 0x0, .never, .all⟩,
    ⟨0x05, 0x05, .bool, .wo1, 0x0, .powerOn, .all⟩,
    ⟨0x06, 0x06, .u32, .rc, 0x0, .powerOn, .all⟩,
    ⟨0x07, 0x07, .u8, .ro, 0x0, .warm, .all⟩,
    ⟨0x08, 0x08, .bool, .rw, 0x0, .warm, .all⟩]

/-- Rows of index B100: sub-index range, type, access class, constant default, reset domain, value range. -/
def rowsB100 : List Row :=
  [
    ⟨0x01, 0x01, .bool, .wo1, 0x0, .powerOn, .all⟩]

/-- Rows of index C000: sub-index range, type, access class, constant default, reset domain, value range. -/
def rowsC000 : List Row :=
  [
    ⟨0x01, 0x01, .u8, .rc, 0x0, .warm, .all⟩,
    ⟨0x02, 0x02, .u32, .rc, 0x0, .warm, .all⟩,
    ⟨0x03, 0x03, .u32, .rc, 0x0, .warm, .all⟩,
    ⟨0x04, 0x04, .u32, .rc, 0x0, .warm, .all⟩,
    ⟨0x05, 0x05, .u32, .rc, 0x0, .warm, .all⟩,
    ⟨0x06, 0x06, .u32, .rc, 0x0, .warm, .all⟩,
    ⟨0x07, 0x07, .u32, .rc, 0x0, .warm, .all⟩,
    ⟨0x08, 0x08, .u8, .rw, 0x0, .warm, .bits 0x3F⟩]

/-- The rows of an index that exists; no row where the index is not implemented (R30). -/
def rowsAt (idx : Nat) : List Row :=
  if idx == 0x1000 then rows1000 else
  if idx == 0x1010 then rows1010 else
  if idx == 0x1100 then rows1100 else
  if 0x1200 ≤ idx && idx < 0x1300 then rows12SS else
  if idx == 0x2000 then rows2000 else
  if idx == 0x2010 then rows2010 else
  if idx == 0x2100 then rows2100 else
  if idx == 0x2200 then rows2200 else
  if idx == 0x2201 then rows2201 else
  if idx == 0x2300 then rows2300 else
  if idx == 0x2400 then rows2400 else
  if idx == 0x2500 then rows2500 else
  if idx == 0x2600 then rows2600 else
  if idx == 0x3000 then rows3000 else
  if idx == 0x3100 then rows3100 else
  if 0x3180 ≤ idx && idx < 0x3188 then rows318S else
  if idx == 0x3200 then rows3200 else
  if 0x3210 ≤ idx && idx < 0x3220 then rows321V else
  if idx == 0x3300 then rows3300 else
  if 0x3310 ≤ idx && idx < 0x3314 then rows331K else
  if 0x4000 ≤ idx && idx < 0x4080 then rows40QQ else
  if 0x6000 ≤ idx && idx < 0x6004 then rows600P else
  if 0x6010 ≤ idx && idx < 0x6020 then rows601X else
  if 0x7000 ≤ idx && idx < 0x7040 then rows70NN else
  if idx == 0x8000 then rows8000 else
  if idx == 0x8001 then rows8001 else
  if 0x8010 ≤ idx && idx < 0x8012 then rows801X else
  if 0x8020 ≤ idx && idx < 0x8028 then rows802K else
  if idx == 0x9000 then rows9000 else
  if idx == 0x9001 then rows9001 else
  if idx == 0x9008 then rows9008 else
  if 0x9010 ≤ idx && idx < 0x9020 then rows9010P else
  if 0x9040 ≤ idx && idx < 0x9080 then rows9040N else
  if idx == 0xA000 then rowsA000 else
  if idx == 0xA010 then rowsA010 else
  if idx == 0xA020 then rowsA020 else
  if idx == 0xA030 then rowsA030 else
  if idx == 0xA040 then rowsA040 else
  if idx == 0xB000 then rowsB000 else
  if idx == 0xB010 then rowsB010 else
  if idx == 0xB100 then rowsB100 else
  if idx == 0xC000 then rowsC000 else
  if 0x5000 ≤ idx && idx < 0x5004 then rows500S ++ rows500P else
  if 0x5000 ≤ idx && idx < 0x5010 then rows500S else
  []

/-- The row of an object, by index and sub-index; none where the object does not exist (R23). -/
def rowOf (idx sub : Nat) : Option Row :=
  (rowsAt idx).find? (fun r => r.lo ≤ sub && sub ≤ r.hi)

/-- The row of an object by its key. -/
def rowOfKey (k : Nat) : Option Row := rowOf (k / 256) (k % 256)

/-- The highest sub-index implemented at an index: what sub-index 00 reads (R23). -/
def highestSub (idx : Nat) : Nat :=
  (rowsAt idx).foldl (fun m r => max m r.hi) 0

/-- The constant default of an object (its row's Default column). Defaults that come from straps are
written over it by the reset that restores them (R28, R70); fuse values are log entry 3. -/
def constDefault (k : Nat) : Nat :=
  match rowOfKey k with
  | some r =>
    -- R132: PART_BANKS defaults to 32 for partition 0 only, in the staged and the active table
    if k == Od.PART_BANKS 0 || k == Od.PART_ACT_BANKS 0 then 32 else r.dflt
  | none => 0

/-- Width in bits of a held object value. -/
def widthOf (k : Nat) : Nat :=
  match rowOfKey k with
  | some r => 8 * r.ty.size
  | none => 0

end Sys2Proof.Machine
end

