-- ==== Sys2Proof/Machine/State.lean ====
section
/-! DEFINITION. The state of the block as plain data, why it can stop, and the state after reset.
The objects of the dictionary are in `od` and `dom` under their own numbers; everything else the spec
gives the device has a field of its own below. -/

namespace Sys2Proof.Machine

/-- A finite map from numbers, as a list of pairs with rising keys. -/
abbrev Map (α : Type) := List (Nat × α)

/-- Why the device's behaviour is not defined. -/
inductive Fault where
  /-- Raised by PORST_N_RISE and by a TAP instruction whose Update-IR counts as T_B, when supplies, straps or
  REFCLK violate R85: "the device's behaviour is then not defined by this manual" (R72). Safe. -/
  | boardViolatesR85
  deriving DecidableEq, Repr

/-- Why a command has no meaning in the model. -/
inductive Refusal where
  /-- Raised by the dispatch for a command not modelled yet. Safe. -/
  | notModelled (mnemonic : String)
  deriving DecidableEq, Repr

/-- One entry of the event log (R357). -/
structure Event where
  ts : Nat
  number : Nat
  cls : Nat
  code : Nat
  count : Nat
  index : Nat
  unit : Nat
  tick : Nat
  arg : Nat
  deriving DecidableEq, Repr

/-- An event that is posted once per tick and gathers that tick's occurrences (R358). -/
structure Gather where
  cls : Nat
  code : Nat
  index : Nat
  unit : Nat
  arg : Nat
  count : Nat
  deriving DecidableEq, Repr

/-- What an output of the device shows: driven low, driven high, or high-impedance (R65, R80). -/
inductive PinLevel where
  | low | high | highZ
  deriving DecidableEq, Repr

/-- What the device puts on its interfaces, newest first (log entry 5). -/
inductive Out where
  /-- an Ethernet frame of EtherType 0x88B5: destination MAC and the bytes after the EtherType (R33) -/
  | frame (dstMac : Nat) (bytes : List Byte)
  /-- the answer to a write that reached the dictionary core: object key, abort code, handle (R35, R46) -/
  | answer (via : Path) (key abort handle : Nat)
  /-- the data of a BAR0 read -/
  | barData (fn : Nat) (val : Nat)
  | msix (fn vector : Nat)
  /-- TICK_OUT changes (R65, R75, R80) -/
  | tickOut (level : PinLevel)
  /-- a BEACON of the PLCA coordinator, with its node count (R81) -/
  | beacon (nodes : Nat)
  /-- a Leat packet leaving a port (R333) -/
  | leat (port : Nat) (bytes : List Byte)
  /-- a transfer on a DSI or AUX channel (R323): pipe, kind, DSI data type, address, bytes written, bytes asked -/
  | linkXfer (pipe kind dtype addr : Nat) (data : List Byte) (ask : Nat)
  /-- the pixels of a frame sent on a pipe's link: pipe, frame, packed pixels in scan order (R326, R328) -/
  | picture (pipe frame : Nat) (pixels : List Nat)
  /-- the data register shifted out of TDO -/
  | tdo (width val : Nat)
  deriving DecidableEq, Repr

/-- Where the boot stands (R87, R93, R106). -/
inductive Phase where
  /-- supplies off -/
  | unpowered
  /-- PORST_N low, or the balls taken by boundary scan (R372) -/
  | held
  /-- REFCLK failed its check (R72): only boundary scan answers -/
  | clockFail
  /-- after T_B or after warm reset, before the boot ROM acts (steps 1 to 3 of R87) -/
  | starting
  /-- in warm reset with WRST_N low (R106) -/
  | warmHeld
  /-- the boot ROM runs, or waits for or verifies an image: BOOT_STATE 0, 1 or 2 -/
  | rom
  /-- the control firmware runs: BOOT_STATE 3 -/
  | running
  deriving DecidableEq, Repr

/-- Where an image under verification came from (R87, R90, R91, R353). -/
inductive ImageSource where
  | nor | transfer | fwLoad | retained
  deriving DecidableEq, Repr

/-- An image under verification: its bytes, its source, and the handle-table slot of its long operation. -/
structure Verify where
  image : List Byte
  source : ImageSource
  slot : Option Nat
  deriving DecidableEq, Repr

structure BootSt where
  phase : Phase
  porst : Bool
  wrst : Bool
  perst : Bool
  /-- straps latched since the supplies came up (R375) -/
  latched : Bool
  /-- the REFCLK check of R72 passed -/
  refclkOk : Bool
  /-- MEM has been trained since power-on, and DRAM content is kept (R106, R111) -/
  trained : Bool
  verifying : Option Verify
  /-- the image the device last started, retained in CTRL (R91) -/
  retained : Option (List Byte)
  /-- some firmware has started since the last device reset (R353) -/
  everRan : Bool
  /-- the boot ROM restarts at step 4 of R87 and has not yet acted on the boot source (R353) -/
  restart : Bool
  /-- the configuration stored in the QSPI NOR (R29): values by object key, and DOM contents -/
  store : Option (Map Nat × Map (List Byte))
  /-- GPIO settings held for the strap balls are in force (R77) -/
  gpioApplied : Bool
  /-- `GPIO_DIR`, `GPIO_OUT` and `GPIO_PULL` of the strap balls as the firmware's restart found them; they stay in force
  until `BOOT_STATE` reads 3 again (R77) -/
  padDir : Nat
  padOut : Nat
  padPull : Nat
  /-- when the balls' settings last changed, and those in force at the 1 µs sample before that (R77) -/
  padAt : Nat
  padWas : Nat × Nat × Nat
  /-- PLCA in use on the segment: false after BEACON loss (R81) -/
  plca : Bool
  /-- PCI Express link up (R80) -/
  pcieUp : Bool
  /-- when a command last showed the level at each pipe's HPD pin, which its `HPD` object then holds -/
  hpdAt : Map Nat
  deriving DecidableEq, Repr

structure TickSt where
  /-- a tick has occurred since the last warm or power-on reset (R15) -/
  ever : Bool
  /-- ticks since TICK_EN was last set -/
  since : Nat
  /-- when TICK_EN was last set -/
  enAt : Nat
  /-- when the latest tick occurred -/
  lastAt : Nat
  /-- predicted period of the running tick (R11) -/
  predicted : Nat
  /-- the latest tick was a real tick of the source -/
  lastReal : Bool
  /-- last period measured between two successive real ticks of the source (R18) -/
  realPeriod : Option Nat
  /-- timeout or interval of the next substituted tick, from `lastAt` -/
  substAfter : Nat
  /-- TICK_SRC and GEN_PERIOD_NS writes waiting for their switch-over tick: value and time accepted, oldest first (R19) -/
  pendSrc : List (Nat × Nat)
  pendPeriod : List (Nat × Nat)
  /-- GEN_PERIOD_NS in force -/
  genPeriod : Nat
  /-- TICK_SRC in force -/
  src : Nat
  /-- what TICK_OUT shows (R65, R75, R80) -/
  pin : PinLevel
  outRise : Nat
  deriving DecidableEq, Repr

/-- An authenticated session (R41 to R43). -/
structure Session where
  node : Nat
  keyId : Nat
  sk : List Byte
  lastRx : Nat
  lastTx : Nat
  lastValid : Nat
  deriving DecidableEq, Repr

/-- The kept request and response of a node (R37). -/
structure Kept where
  request : List Byte
  response : List Byte
  deriving DecidableEq, Repr

/-- An unfinished block transfer to a DOM object (R38). -/
structure Xfer where
  owner : Path
  total : Nat
  data : List Byte
  last : Nat
  deriving DecidableEq, Repr

/-- A frame owed to a node that has not left yet (R31, R35, R53): not before `due`, none while its request is still being
executed; and the write that takes effect once it has left (R62, R106). -/
structure Waiting where
  node : Nat
  mac : Nat
  due : Nat
  frame : Option (List Byte)
  after : Option (Nat × Nat)
  deriving DecidableEq, Repr

structure BapSt where
  sessions : List Session
  kept : Map Kept
  macs : Map Nat
  notifySeq : Nat
  xfers : Map Xfer
  /-- frames that wait behind a delayed DISCOVER answer, oldest first -/
  waiting : List Waiting
  deriving DecidableEq, Repr

/-- The dictionary window and BAR0 registers of one PCIe function (R45 to R48, R137, R147). -/
structure Win where
  daAddr : Nat
  daCtrl : Nat
  daLo : Nat
  daHi : Nat
  daStatus : Nat
  /-- abort code that `DA_STATUS` shows until the access under way is done -/
  daBefore : Nat
  /-- when the latest access is done: `GO` reads 1 before that (R45) -/
  goUntil : Nat
  daOffset : Nat
  daLen : Nat
  daBuf : List Byte
  pageMap : Map Nat
  /-- lower words written and not yet joined by their upper word (R47) -/
  lower : Map Nat
  /-- upper words latched by a read of the lower word (R47) -/
  latched : Map Nat
  lastAbort : Nat
  errCount : Nat
  query : Nat
  msixTable : Map Nat
  msixPending : Map Nat
  deriving DecidableEq, Repr

/-- What a long operation does (R50). -/
inductive OpKind where
  | store | erase | bootLoad | fwLoad | wheelLoad | memTrain | repartition
  | linkTrain (p : Nat) | selftest (sel : Nat) | casForm
  deriving DecidableEq, Repr

/-- A running long operation and the slot of the handle table it holds (R52). -/
structure LongOp where
  slot : Fin 256
  kind : OpKind
  origin : Path
  deriving DecidableEq, Repr

structure PwrSt where
  /-- when each domain entered its present transition -/
  since : Map Nat
  /-- closing domains whose drain has ended (R97) -/
  drained : List Nat
  /-- requested output of each PLL whose change waits (R103, R110): MHz and time accepted -/
  pllPending : Map (Nat × Nat)
  /-- PLL changes under way (R102): the new output in MHz and the time it started -/
  pllChanging : Map (Nat × Nat)
  deriving DecidableEq, Repr

/-- DRAM refresh state (R131). -/
inductive SelfRefresh where
  | awake
  | asleep (since : Nat)
  deriving DecidableEq, Repr

/-- The 256 KiB DRAM FIFO of a pipe (R130): fill in bytes at a moment, and whether a refill runs. -/
structure Fifo where
  fill : Nat
  at_ : Nat
  refilling : Bool
  deriving DecidableEq, Repr

/-- One row of the partition table (R121). -/
structure Part where
  kind : Nat
  first : Nat
  banks : Nat
  owner : Nat
  deriving DecidableEq, Repr

structure MemSt where
  dram : Map Byte
  millpond : Map Byte
  /-- host memory, keyed by function × 2^56 + bus address -/
  host : Map Byte
  /-- compression codes of 256-byte blocks, by block number (R127) -/
  metaDram : Map Nat
  metaMill : Map Nat
  /-- units holding an uncorrectable error, by unit number: 32-byte DRAM units, 64-bit Millpond words (R114) -/
  badDram : List Nat
  badMill : List Nat
  /-- banks in retention, and the last access of each bank (R122) -/
  retained : List Nat
  bankUse : Map Nat
  /-- cached level-2 entries: client × 2^24 + virtual page (R120) -/
  cache : Map Nat
  refresh : SelfRefresh
  /-- when the last DRAM request was served (R131) -/
  lastReq : Nat
  fifos : Map Fifo
  /-- copy of the staged partition table of a running repartition (R123) -/
  staged : Option (List Part)
  /-- DRAM writes that wait for the end of a retraining (R111), oldest first: address, bit C, bytes, clear byte -/
  waiting : List (Nat × Bool × List Byte × Option Byte)
  deriving DecidableEq, Repr

inductive JobPhase where
  | queued | started | finished
  deriving DecidableEq, Repr

/-- The window a window job runs in (R178, R180, R190). -/
structure WinRun where
  template : Nat
  lastBucket : Nat
  wcet : Nat
  overrun : Bool
  deriving DecidableEq, Repr

/-- Where the context of a job stands (R184 to R186). -/
inductive Context where
  | live
  /-- saved to the SPILL partition: accumulator and staging bytes held there -/
  | spilled (acc staging : Nat)
  /-- saved to DRAM on the spill-exhausted path -/
  | toDram (acc staging : Nat)
  deriving DecidableEq, Repr

/-- A job: a submission that has no completion record yet (R138 to R150). -/
structure Job where
  id : JobId
  handle : Nat
  /-- the client that owned its queue when it was submitted -/
  owner : Fin 64
  slot : List Byte
  /-- the slot has been read and its wait, ranges and fields checked -/
  checked : Bool
  phase : JobPhase
  /-- the list of an INDIRECT job has been taken; commands done so far -/
  inList : Bool
  taken : Nat
  /-- pre-emption points passed within the command it is at; 0 before the command begins (R184) -/
  done : Nat
  /-- the descriptor of the layer within which its command stands (R214) -/
  desc : List Byte
  /-- accumulator and staging bytes live at the point where its command stands, where the spec gives them (R189, R256) -/
  live : Nat × Nat
  status : Nat
  flags : Nat
  detail : List Byte
  window : Option WinRun
  unit : Option SchedUnit
  context : Context
  startAt : Nat
  /-- `TICK_COUNT` when the job started -/
  startTick : Nat
  /-- unit clock cycles elapsed since it started, in thousandths, for SLOWDOWN (R190) -/
  cycles : Nat
  /-- waits at its command: for the bin store, a stream, a band slot or a remote device -/
  blocked : Bool
  /-- flags of selected streams not yet completed, and their `FLAG_VALUE`: poisoned where the job ends ABORTED or
  FAULT (R284) -/
  poisons : List (Nat × Nat)
  /-- epoch carried by its record -/
  epoch : Option Nat
  /-- tick count and the tick's bucket limit of its solve deadline (R293) -/
  deadline : Option (Nat × Nat)
  deriving DecidableEq, Repr

def Job.client (j : Job) : Nat := j.owner.val

/-- A Sluice flag or fence (R153, R361). -/
structure FlagSt where
  val : Nat
  poison : Bool
  p : Nat
  deriving DecidableEq, Repr

/-- What JOB_STATE reports of the last submission of a slot (R147). -/
structure SlotUse where
  n : Nat
  client : Nat
  done : Option Nat
  deriving DecidableEq, Repr

structure QueueSt where
  /-- outstanding jobs in the order of their submission -/
  jobs : List Job
  /-- generation of each slot, by queue × 2048 + slot (R146) -/
  gens : Map Nat
  uses : Map SlotUse
  /-- records held in each client's overflow store, oldest first (R152) -/
  held : Map (List (List Byte))
  /-- clients in a stall of R152 -/
  stalled : List Nat
  flags : Map FlagSt
  fences : Map FlagSt
  deriving DecidableEq, Repr

/-- An ingest frame that is open (R162). -/
structure OpenFrame where
  row : Nat
  rows : Nat
  ts : Nat
  tick : Nat
  short : Bool
  long : Bool
  crc : Bool
  fault : Bool
  deriving DecidableEq, Repr

structure Ingest where
  f : Nat
  frame : Option OpenFrame
  /-- the frame now arriving is dropped whole (R164) -/
  dropping : Bool
  deriving DecidableEq, Repr

/-- A Waterwheel entry (R171). -/
structure WheelEntry where
  template : Nat
  parity : Nat
  quarter : Nat
  engine : Nat
  queue : Nat
  start : Nat
  stop : Nat
  wcet : Nat
  deriving DecidableEq, Repr

/-- A Waterwheel table (R170). -/
structure Wheel where
  tickNs : Nat
  spll : Nat
  npll : Nat
  vpll : Nat
  cpll : Nat
  mpll : Nat
  entries : List WheelEntry
  deriving DecidableEq, Repr

structure WheelSt where
  table : Option Wheel
  /-- image copied by WHEEL_LOAD and not yet checked -/
  image : Option (List Byte)
  /-- checked table, highest load, and the end of its check (R174) -/
  ready : Option (Wheel × Nat × Nat)
  /-- time of a WHEEL_UNLOAD that waits for its tick (R175) -/
  unloadAt : Option Nat
  deriving DecidableEq, Repr

structure SchedSt where
  /-- the job that holds each unit -/
  running : List (SchedUnit × JobId)
  /-- jobs to which a context switch of their unit is under way, with the time at which its cycles end (R185) -/
  incoming : List (SchedUnit × JobId × Nat)
  /-- queue served last at each unit and level (R182) -/
  served : List (SchedUnit × Nat × Nat)
  /-- priorities in force, by queue, of queues whose `Q_PRIO` has been written since the unit's last pre-emption point
  (R192) -/
  held : Map Nat
  deriving DecidableEq, Repr

inductive SeqState where
  | running | parked
  deriving DecidableEq, Repr

/-- A sequence of a serving session that is not FREE (R237). -/
structure Seq where
  st : SeqState
  pages : List Nat
  n : Nat
  /-- join order: step, and place within the step -/
  order : Nat × Nat
  deriving DecidableEq, Repr

/-- Why an access of a job failed: the FAULT cause of R149 and the virtual address it names. -/
structure MemFault where
  cause : Nat
  va : Nat
  deriving DecidableEq, Repr

/-- What a serving step has decided of one of its jobs (R239). -/
inductive Verdict where
  /-- it contributes rows -/
  | row
  /-- its own input or output row faults -/
  | lost (f : MemFault)
  | fault
  | parked
  | deferred (f : Nat)
  | leave
  deriving DecidableEq, Repr

/-- A job of a serving step: its slot and the decision. -/
structure StepJob where
  job : JobId
  slot : List Byte
  verdict : Verdict
  deriving DecidableEq, Repr

/-- Pages, sequences and decisions of a serving step. `taken` are the pages taken in it, by sequence. -/
structure StepSt where
  free : List Nat
  seqs : Map Seq
  taken : List (Nat × Nat)
  parks : Nat
  rows : Nat
  deriving DecidableEq, Repr

/-- A serving step in progress; its first job stands for it on its quarter (R238, R240). -/
structure StepRun where
  jobs : List StepJob
  st : StepSt
  /-- the input rows have been copied -/
  copied : Bool
  flags : Nat
  deriving DecidableEq, Repr

structure Serving where
  seqs : Map Seq
  /-- free pages, in ascending order -/
  free : List Nat
  /-- pages that leave for F at the next step -/
  freed : List Nat
  /-- byte offset of each ATTENTION slot within a position, computed when the session was enabled (R232, R234) -/
  slots : List Nat
  step : Option StepRun
  deriving DecidableEq, Repr

/-- A loaded kernel (R266 to R268). -/
structure Kernel where
  stage : Nat
  spirv : List Byte
  codeBytes : Nat
  wgLanes : Nat
  vregs : Nat
  sharedBytes : Nat
  privateBytes : Nat
  wcetPerGroup : Nat
  maxTile : Nat
  aMax : Nat
  sMax : Nat
  /-- `BLOCK_ID` and `CYCLES_TO_NEXT` of each cheap point (R188) -/
  cheap : List (Nat × Nat)
  /-- live ranges: first and last cheap point, bytes, kind (R189) -/
  ranges : List (Nat × Nat × Nat × Nat)
  /-- an UNLOAD_KERNEL has marked the slot; the jobs that wait for it to be emptied -/
  unloading : Bool
  waiting : List JobId
  /-- jobs that had started and used the slot when it was marked -/
  users : List JobId
  deriving DecidableEq, Repr

/-- A draw that a pass has taken: its number, record, kernels and argument block (R250, R263). -/
structure Draw where
  index : Nat
  b : List Byte
  vs : Kernel
  fs : Option Kernel
  args : List Byte
  deriving DecidableEq, Repr

/-- A fragment: its draw, the inputs of its kernel, its pixel and its rasterised depth. -/
structure Frag where
  draw : Draw
  inp : List Nat
  x : Nat
  y : Nat
  z : Nat
  deriving DecidableEq, Repr

/-- A render pass in progress (R252, R253, R255). -/
structure PassRun where
  /-- its descriptor, once checked -/
  desc : List Byte
  /-- the targets have been made ready, and `LOAD_OP` carried out in immediate mode -/
  ready : Bool
  /-- the draw in progress, or the next one -/
  draw : Nat
  inDraw : Bool
  /-- fragments of the primitives of the draw that are still to be shaded or binned -/
  todo : List (List Frag)
  /-- primitives of the draw that are done -/
  since : Nat
  /-- fragments binned and not yet shaded, in submission order; their primitives, and primitive–bin pairs -/
  frags : List Frag
  prims : Nat
  pairs : Nat
  /-- bins that the render under way still has to shade, and whether it is the pass's last -/
  bins : List (Nat × Nat)
  last : Bool
  /-- bins that a partial render has written, to be reloaded -/
  written : List (Nat × Nat)
  /-- bin store bytes in use -/
  used : Nat
  deriving DecidableEq, Repr

/-- A workgroup in progress: its core and residency position, and for each lane whether it has ended and what its operations
gave. -/
structure GroupRun where
  core : Nat
  pos : Nat
  lanes : List (Bool × List (List Nat))
  deriving DecidableEq, Repr

/-- A DISPATCH in progress: the workgroups done, and the one within which it stands (R262, R264). -/
structure DispatchRun where
  group : Nat
  wg : Option GroupRun
  deriving DecidableEq, Repr

/-- A raster command within which its job stands. -/
inductive RasterWork where
  | pass (p : PassRun)
  | dispatch (d : DispatchRun)
  deriving DecidableEq, Repr

structure RasterSt where
  /-- by client × 16 + slot -/
  kernels : Map Kernel
  binHolder : Option JobId
  /-- tiled passes that wait for the bin store, in the order their commands started (R256) -/
  binQueue : List JobId
  works : List (JobId × RasterWork)
  deriving DecidableEq, Repr

/-- A unit of vision work (R283). -/
inductive VisionUnit where
  | build (stream : Nat)
  | level (stream lvl : Nat)
  | detect (stream : Nat)
  | match_
  deriving DecidableEq, Repr

/-- A vision command in progress: its slot or list command, its stream records, and the units still to run. -/
structure VisionWork where
  job : JobId
  cmd : List Byte
  recs : Map (List Byte)
  units : List VisionUnit
  deriving DecidableEq, Repr

structure VisionSt where
  works : List VisionWork
  current : Option (JobId × VisionUnit)
  holds : Map JobId
  deriving DecidableEq, Repr

/-- A bundle-adjustment structure and its present values, F32 bit patterns (R287). -/
structure Structure where
  store : Nat
  p : Nat
  q : Nat
  o : Nat
  fixed : Nat
  /-- (point, pose) of each observation -/
  obs : List (Nat × Nat)
  poses : List (List Nat)
  points : List (List Nat)
  meas : List (List Nat)
  deriving DecidableEq, Repr

/-- A bundle adjustment in progress (R290): its values so far, the iterations run, and what the last one left. -/
structure BaRun where
  x : Structure
  it : Nat
  illPoints : List Nat
  illPoses : List Nat
  left : Nat
  cost : Nat
  flags : Nat
  deriving DecidableEq, Repr

structure SolverSt where
  slots : Map Structure
  works : List (JobId × BaRun)
  deriving DecidableEq, Repr

/-- What a PRESENT shows on its layer (R320). -/
structure LayerCfg where
  job : JobId
  handle : Nat
  client : Nat
  enable : Bool
  rot : Nat
  mirror : Bool
  alphaMode : Nat
  flagsByte : Nat
  globalAlpha : Nat
  va : Nat
  srcW : Nat
  srcH : Nat
  pitch : Nat
  fmt : Nat
  dstX : Nat
  dstY : Nat
  palKey : Nat
  deriving DecidableEq, Repr

/-- A PRESENT whose checks have ended and which waits for its latch point (R321): since when it is ready. -/
structure Ready where
  layer : Nat
  cfg : LayerCfg
  target : Option Nat
  at_ : Nat
  deriving DecidableEq, Repr

/-- A buffer in use: its layer state, frames shown, first frame shown, and whether a fetch faulted (R322). -/
structure Shown where
  layer : Nat
  cfg : LayerCfg
  frames : Nat
  first : Nat
  fault : Option Nat
  deriving DecidableEq, Repr

/-- Millrace settings latched at t_F (R309). -/
structure MrLatch where
  poseFlag : Nat
  poseVa0 : Nat
  poseVa1 : Nat
  srcPoseVa : Nat
  focal : Nat
  fbValid : Bool
  fbVa : Nat
  fbW : Nat
  fbH : Nat
  fbPitch : Nat
  fbPoseVa : Nat
  deriving DecidableEq, Repr

inductive BandState where
  | pending | inProgress | complete | skipped | filled | blank | dropped
  deriving DecidableEq, Repr

/-- The band-out layer bound to a pipe's frame (R300). -/
structure BandOut where
  job : JobId
  desc : List Byte
  /-- pose of its source, read when it bound -/
  pose : List Nat
  /-- newest pose of the band in progress -/
  newest : List Nat
  wrote : Nat
  missed : Nat
  deriving DecidableEq, Repr

/-- The last band completed in a pipe's slots (R376). -/
structure BandSeen where
  tick : Nat
  fallback : Bool
  band : Nat
  crc : Nat
  deriving DecidableEq, Repr

/-- The last compared frame of a pipe (R377). -/
structure Compared where
  same : Bool
  frame : Nat
  pin : Nat
  pipe : Nat
  deriving DecidableEq, Repr

/-- A frame that was scanned and whose CRCs are still to be compared (R328, R329): its number, its pipeline CRC, and
whether `OUTCHK_EN` read 1 at its t_F. -/
structure ToCompare where
  frame : Nat
  crc : Nat
  counted : Bool
  deriving DecidableEq, Repr

structure Pipe where
  /-- t_F of the frame in progress -/
  tF : Nat
  scanning : Bool
  frozen : Bool
  blank : Bool
  abandoned : Bool
  /-- the next frame is frozen after an abandoned one (R327) -/
  freezeNext : Bool
  /-- PIPE_EN was written 0: the pipe stops at its next t_F (R318) -/
  stopping : Bool
  layers : List Shown
  /-- layers that are transparent in this frame (R308 DROP) -/
  dropped : List Nat
  ready : List Ready
  /-- layers and low 32 bits of the frames for which they were late, or which began frozen: a later PRESENT aimed at one is
  not counted again (R308, R319, R321) -/
  late : List (Nat × Nat)
  /-- layers, buffers and fallback source of the last complete frame (R319) -/
  good : Option (List Shown × MrLatch)
  /-- replaced buffers that wait for their release (R322) -/
  releasing : List Shown
  mr : MrLatch
  /-- active palette (R323) -/
  palActive : List Byte
  bg : Nat
  chk : Bool
  unchecked : Bool
  toCompare : Option ToCompare
  bands : List BandState
  bandOut : Option BandOut
  /-- the pose latched for the latest band (R307) -/
  pose : Option (List Nat)
  /-- the Millrace rows that the scan has read from their slots, in order; none where a band is transparent (R298, R304) -/
  rows : List (Option (List Byte))
  seen : Option BandSeen
  compared : Option Compared
  underrunSeen : Bool
  /-- pixels of the frame that lacked their data: start (x, y) and length of each run -/
  missing : List (Nat × Nat × Nat)
  /-- the last pixel composed from complete data (R327) -/
  lastPixel : Option Nat
  /-- the first pixels of the frame, composed from what DRAM held before a retraining (R111) -/
  early : List Nat
  deriving DecidableEq, Repr

/-- A Leat transfer this device started (R343, R344). -/
structure LeatXfer where
  id : Nat
  job : JobId
  members : List Nat
  /-- members whose DONE is awaited -/
  waiting : List Nat
  /-- local destination of a LEAT_FETCH -/
  fetchVa : Option Nat
  /-- queue and tail of the doorbell to ring once the data have arrived -/
  doorbell : Option (Nat × Nat)
  /-- what `DETAIL` bytes 16 and 17 will carry -/
  code : Nat
  /-- cascade tick number when it started (R333) -/
  ctick : Nat
  deriving DecidableEq, Repr

/-- A packet refused for a domain, kept by its sender (R98). -/
structure RefusedPkt where
  port : Nat
  pkt : List Byte
  tries : Nat
  tick : Nat
  deriving DecidableEq, Repr

/-- A reply gathered by a forming master (R340). -/
structure FormReply where
  dev : Nat
  deviceId : Nat
  stepping : Nat
  follower : Bool
  state : Nat
  /-- port of this device by which the reply came, and port of the replier by which DISCOVER reached it -/
  port : Nat
  inPort : Nat
  ring : Bool
  deriving DecidableEq, Repr

/-- A transfer being received into memory or a seam slot (R346, R347). -/
structure RxXfer where
  src : Nat
  id : Nat
  got : Nat
  deriving DecidableEq, Repr

structure LeatSt where
  rxSeq : Map Nat
  txSeq : Map Nat
  /-- replay buffer of each port, newest last, at most 64 packets (R334) -/
  replay : Map (List (List Byte))
  nextId : Nat
  xfers : List LeatXfer
  rx : List RxXfer
  /-- cascade ticks that a seam slot has settled, newest first, with whether they were filled (R347) -/
  seams : Map (List (Nat × Bool))
  refused : List RefusedPkt
  replies : List FormReply
  formAt : Option Nat
  /-- master tick count at which a configured cascade becomes FORMED (R340 step 5) -/
  formTick : Option Nat
  /-- when the latest TICK packet arrived -/
  tickPktAt : Option Nat
  /-- the tick, by its time, for which R338's 100 µs have ended without a packet -/
  timeoutFor : Option Nat
  /-- the offset is taken from the next TICK packet without counting a slip -/
  resync : Bool
  /-- consecutive substituted ticks (R349) -/
  substRun : Nat
  /-- members told by CONFIG to a follower that waits to be FORMED, and the cascade tick number from which it is (R340) -/
  configured : Option (Nat × Nat)
  deriving DecidableEq, Repr

structure WatchSt where
  /-- the Governor runs (R351) -/
  gov : Bool
  /-- start of the boot period, or time of the last valid service -/
  govAt : Nat
  /-- ticks counted in the tick period -/
  govTicks : Nat
  /-- start of the Scarecrow's period and the period it uses (R354) -/
  scareAt : Nat
  scareMs : Nat
  /-- when 0x3A7C was accepted (R355) -/
  scareArm : Option Nat
  deriving DecidableEq, Repr

structure TapSt where
  /-- boundary register, 230 cells (R373) -/
  boundary : Nat
  /-- value held by the boundary register's update stage -/
  update : Nat
  taken : Bool
  pipe : Nat
  port : Nat
  /-- OUTCHK_LOOP in force has compared a frame since selection -/
  loopSeen : Bool
  /-- last value captured by a data register -/
  captured : Nat
  deriving DecidableEq, Repr

/-- The block. -/
structure State where
  pending : List Instr
  now : Nat
  tB : Nat
  od : Map Nat
  dom : Map (List Byte)
  written : List Nat
  events : Map Event
  gather : List Gather
  out : List Out
  fresh : Nat
  boot : BootSt
  tick : TickSt
  bap : BapSt
  wins : Map Win
  gens : Map Nat
  ops : List LongOp
  pwr : PwrSt
  mem : MemSt
  qs : QueueSt
  ingest : Map Ingest
  wheel : WheelSt
  sched : SchedSt
  serving : Map Serving
  raster : RasterSt
  vision : VisionSt
  solver : SolverSt
  pipes : Map Pipe
  leat : LeatSt
  watch : WatchSt
  tap : TapSt
  deriving DecidableEq, Repr

namespace Reset

/-- Power-on values of the parts of the state that hold no object. -/
def boot : BootSt :=
  { phase := .held, porst := false, wrst := true, perst := false, latched := false, refclkOk := false,
    trained := false, verifying := none, retained := none, everRan := false, restart := false, store := none,
    gpioApplied := false, padDir := 0, padOut := 0, padPull := 0xFFFFFFFF, padAt := 0,
    padWas := (0, 0, 0xFFFFFFFF), plca := true, pcieUp := false, hpdAt := [] }

/-- No tick has occurred; the internal generator with its default period is selected (R21). -/
def tick : TickSt :=
  { ever := false, since := 0, enAt := 0, lastAt := 0, predicted := 8333333, lastReal := false, realPeriod := none,
    substAfter := 0, pendSrc := [], pendPeriod := [], genPeriod := 8333333, src := 2,
    pin := .highZ, outRise := 0 }

def bap : BapSt :=
  { sessions := [], kept := [], macs := [], notifySeq := 0, xfers := [], waiting := [] }

def win : Win :=
  { daAddr := 0, daCtrl := 0, daLo := 0, daHi := 0, daStatus := 0, daBefore := 0, goUntil := 0, daOffset := 0, daLen := 0, daBuf := [],
    pageMap := [], lower := [], latched := [], lastAbort := 0, errCount := 0, query := 0, msixTable := [],
    msixPending := [] }

def pwr : PwrSt :=
  { since := [], drained := [], pllPending := [], pllChanging := [] }

def mem : MemSt :=
  { dram := [], millpond := [], host := [], metaDram := [], metaMill := [], badDram := [], badMill := [],
    retained := [], bankUse := [], cache := [], refresh := .awake, lastReq := 0, fifos := [], staged := none,
    waiting := [] }

def queues : QueueSt :=
  { jobs := [], gens := [], uses := [], held := [], stalled := [], flags := [], fences := [] }

def mr : MrLatch :=
  { poseFlag := 0xFFFF, poseVa0 := 0, poseVa1 := 0, srcPoseVa := 0, focal := 0x447A0000, fbValid := false,
    fbVa := 0, fbW := 1280, fbH := 720, fbPitch := 160, fbPoseVa := 0 }

def pipe : Pipe :=
  { tF := 0, scanning := false, frozen := false, blank := false, abandoned := false, freezeNext := false,
    stopping := false, layers := [], dropped := [], ready := [], late := [], good := none, releasing := [], mr := mr,
    palActive := [], bg := 0, chk := false, unchecked := false, toCompare := none, bands := [], bandOut := none,
    pose := none, rows := [], seen := none, compared := none, underrunSeen := false, missing := [], lastPixel := none, early := [] }

def leat : LeatSt :=
  { rxSeq := [], txSeq := [], replay := [], nextId := 0, xfers := [], rx := [], seams := [],
    refused := [], replies := [], formAt := none, formTick := none, tickPktAt := none, timeoutFor := none, resync := false,
    substRun := 0, configured := none }

def watch : WatchSt :=
  { gov := false, govAt := 0, govTicks := 0, scareAt := 0, scareMs := 1000, scareArm := none }

def tap : TapSt :=
  { boundary := 0, update := 0, taken := false, pipe := 0, port := 0, loopSeen := false, captured := 0 }

def wheel : WheelSt := { table := none, image := none, ready := none, unloadAt := none }

def sched : SchedSt := { running := [], incoming := [], served := [], held := [] }

def raster : RasterSt := { kernels := [], binHolder := none, binQueue := [], works := [] }

def vision : VisionSt := { works := [], current := none, holds := [] }

def solver : SolverSt := { slots := [], works := [] }

end Reset

/-- The block in power-on reset: supplies good, PORST_N low (R85, R105). Every object is at its default;
AON reads ON, CTRL and MEM read OPENING, the gated domains OFF (R93, R100). -/
def State.reset : State :=
  { pending := [], now := 0, tB := 0,
    od := [(Od.PD_STATE 0, 2), (Od.PD_STATE 1, 1), (Od.PD_STATE 2, 1)],
    dom := [], written := [], events := [], gather := [], out := [], fresh := 0,
    boot := Reset.boot, tick := Reset.tick, bap := Reset.bap, wins := [], gens := [], ops := [],
    pwr := Reset.pwr, mem := Reset.mem, qs := Reset.queues, ingest := [], wheel := Reset.wheel,
    sched := Reset.sched, serving := [], raster := Reset.raster, vision := Reset.vision,
    solver := Reset.solver, pipes := [], leat := Reset.leat, watch := Reset.watch, tap := Reset.tap }

end Sys2Proof.Machine
end

