-- ==== Sys2Proof/Machine/Ops.lean ====
section
/-! DEFINITION. The named operations over maps, objects, time, events, NOTIFY frames, MSI-X and long operations. -/

namespace Sys2Proof.Machine

/-! ## Maps -/

/-- The value at a key. -/
def mget {α : Type} : Map α → Nat → Option α
  | [], _ => none
  | (a, v) :: r, k => if a == k then some v else mget r k

/-- The value at a key, or a default. -/
def mgetD {α : Type} (m : Map α) (k : Nat) (d : α) : α := (mget m k).getD d

/-- The map with a value at a key. -/
def mset {α : Type} : Map α → Nat → α → Map α
  | [], k, v => [(k, v)]
  | (a, w) :: r, k, v =>
    if k < a then (k, v) :: (a, w) :: r
    else if k == a then (k, v) :: r
    else (a, w) :: mset r k v

/-- The map without a key. -/
def mdel {α : Type} (m : Map α) (k : Nat) : Map α := m.filter (fun e => e.1 != k)

/-- The map with a value at a key, where `d` is what an unlisted key holds. -/
def mput {α : Type} [BEq α] (d : α) (m : Map α) (k : Nat) (v : α) : Map α :=
  if v == d then mdel m k else mset m k v

/-! ## Objects -/

/-- The held value of an object. -/
def State.get (s : State) (k : Nat) : Nat := mgetD s.od k (constDefault k)

/-- A held value replaced, kept within the object's width. -/
def State.set (s : State) (k v : Nat) : State :=
  { s with od := mput (constDefault k) s.od k (v % 2 ^ widthOf k) }

/-- Several objects set in turn. -/
def State.sets (s : State) (l : List (Nat × Nat)) : State := l.foldl (fun s e => s.set e.1 e.2) s

/-- Where a counter saturates: the counts held in U64 objects have 48 bits (R382). -/
def countLimit (k : Nat) : Nat := if widthOf k == 64 then 2 ^ 48 - 1 else 2 ^ widthOf k - 1

/-- A counter that saturates at its limit. -/
def State.incBy (s : State) (k n : Nat) : State := s.set k (min (countLimit k) (s.get k + n))

def State.inc (s : State) (k : Nat) : State := s.incBy k 1

/-- The content of a DOM object. -/
def State.getDom (s : State) (k : Nat) : List Byte := mgetD s.dom k []

def State.setDom (s : State) (k : Nat) (v : List Byte) : State := { s with dom := mput [] s.dom k v }

/-- A BOOL object reads 1. -/
def State.on (s : State) (k : Nat) : Bool := s.get k == 1

/-- The next free value (log entry 2). -/
def State.free (s : State) : Nat := Config.freeNat s.fresh

/-- `n` open bytes of the next draw. -/
def State.freeBytes (s : State) (n : Nat) : List Byte := (List.range n).map (fun i => BitVec.ofNat 8 (Config.freeAt s.fresh i))

def State.spend (s : State) : State := { s with fresh := s.fresh + 1 }

/-- Apply an update when a condition holds. -/
def State.when (s : State) (c : Bool) (f : State → State) : State := if c then f s else s

/-! ## Abort codes (R44) -/

namespace Ab
def OK : Nat := 0
def NO_OBJECT : Nat := 0x0101
def NO_SUB : Nat := 0x0102
def READ_ONLY : Nat := 0x0201
def WRITE_ONLY : Nat := 0x0202
def LOCKED : Nat := 0x0203
def TYPE : Nat := 0x0301
def RANGE : Nat := 0x0302
def DOMAIN_CLOSING : Nat := 0x0401
def DOMAIN_OFF : Nat := 0x0402
def BUSY : Nat := 0x0501
def AUTH : Nat := 0x0601
def HANDLE_STALE : Nat := 0x0701
def NO_STORE : Nat := 0x0801
end Ab

/-! ## Time -/

/-- Device timestamp (R22). -/
def State.ts (s : State) : Nat := (s.now - s.tB) % 2 ^ 64

/-- The PLL whose clock counts a unit's cycles (R169); none for the display front end. -/
def SchedUnit.pll : SchedUnit → Option Nat
  | .raster => some 2
  | .nq _ => some 1
  | .dibber => some 1
  | .vision => some 3
  | .solver => some 3
  | .display => none
  | .copy => some 4
  | .control => some 0

/-- The clock of a unit in MHz (R169). -/
def State.unitMhz (s : State) (u : SchedUnit) : Nat :=
  match SchedUnit.pll u with
  | some p => s.get (Od.PLL_MHZ p)
  | none => 400

/-- A band-out layer of the job is bound to a frame none of whose bands is in progress. -/
def State.idleBands (s : State) (id : JobId) : Bool :=
  s.pipes.any (fun e => e.2.bandOut.any (fun b => b.job == id) && !e.2.bands.contains .inProgress)

/-- Unit cycles, in thousandths, that pass for a window job from its start to its completion (R190); for a bound band-out
job, those with a band in progress (R302). -/
def State.jobCycles (s : State) (dt : Nat) (j : Job) : Job :=
  if j.phase != .queued && j.window.isSome && !s.idleBands j.id then
    match j.unit with
    | some u => { j with cycles := j.cycles + dt * s.unitMhz u }
    | none => j
  else j

/-- `dt` ns pass. -/
def State.advance (s : State) (dt : Nat) : State :=
  { s with now := s.now + dt, qs := { s.qs with jobs := s.qs.jobs.map (s.jobCycles dt) } }

/-! ## Power domains and engines -/

/-- State of power domain d (R100): 0 OFF, 1 OPENING, 2 ON, 3 CLOSING. -/
def State.pd (s : State) (d : Nat) : Nat := s.get (Od.PD_STATE d)

def State.domOn (s : State) (d : Nat) : Bool := s.pd d == 2

/-- The abort that R96 gives for an access to a domain: OK while ON. -/
def State.domCode (s : State) (d : Nat) : Nat :=
  if s.pd d == 2 then Ab.OK else if s.pd d == 3 then Ab.DOMAIN_CLOSING else Ab.DOMAIN_OFF

/-- Engine code (R108) of a queue's engine (R133). -/
def engineOf (q : Nat) : Nat :=
  if q < 16 then 0 else if q < 64 then 1 else if q < 80 then 2 else if q < 88 then 3
  else if q < 96 then 4 else if q < 112 then 5 else 6

/-- Queues of an engine code (R133). -/
def queuesOf (e : Nat) : List Nat := (List.range 128).filter (fun q => engineOf q == e)

/-- Power domains that hold an engine (R92); the neural engine has its quarters and the Dibber. -/
def engineDomains (e : Nat) : List Nat :=
  if e == 0 then [3] else if e == 1 then [4, 5, 6, 7, 9] else if e == 2 then [8] else if e == 3 then [8]
  else if e == 4 then [9] else if e == 5 then [2] else [1]

/-- The abort of R96 for an engine: OK when one of its domains is ON (R96, R213). -/
def State.engineCode (s : State) (e : Nat) : Nat :=
  if (engineDomains e).any s.domOn then Ab.OK
  else if (engineDomains e).any (fun d => s.pd d == 3) then Ab.DOMAIN_CLOSING else Ab.DOMAIN_OFF

/-- Domain of a scheduling unit (R92). -/
def SchedUnit.domain : SchedUnit → Nat
  | .raster => 3
  | .nq q => 4 + q.val
  | .dibber => 9
  | .vision => 8
  | .solver => 8
  | .display => 9
  | .copy => 2
  | .control => 1

/-- Unit code of R169. -/
def SchedUnit.code : SchedUnit → Nat
  | .raster => 0
  | .nq _ => 1
  | .dibber => 2
  | .vision => 3
  | .solver => 4
  | .display => 5
  | .copy => 6
  | .control => 7

/-- Engine code (R108) of a scheduling unit. -/
def SchedUnit.engine : SchedUnit → Nat
  | .raster => 0
  | .nq _ => 1
  | .dibber => 1
  | .vision => 2
  | .solver => 3
  | .display => 4
  | .copy => 5
  | .control => 6

/-! ## Phases of the boot -/

/-- The dictionary core and the field network answer (R81, R106). -/
def State.netUp (s : State) : Bool :=
  match s.boot.phase with
  | .rom => true
  | .running => true
  | .starting => s.boot.trained || s.now - s.tB ≥ 20000000
  | _ => false

/-- Control firmware runs. -/
def State.running (s : State) : Bool := s.boot.phase == .running

/-- The device is out of reset and its clocks run. -/
def State.alive (s : State) : Bool := s.boot.phase == .rom || s.boot.phase == .running

/-! ## The balls of the device -/

/-- A GPIO object as it is in force at the balls (R68, R77): on the strap balls a write waits until `BOOT_STATE` reads 3;
after a restart of the firmware they keep what it found, and before it first runs they hold `idle`. -/
def State.padValue (s : State) (k held idle : Nat) : Nat :=
  if s.running && s.boot.gpioApplied then s.get k
  else s.get k / 2 ^ 13 * 2 ^ 13 + (if s.boot.gpioApplied then held else idle) % 2 ^ 13

/-- Directions, output levels and pull-downs in force at the GPIO balls (R68, R77). -/
def State.pads (s : State) : Nat × Nat × Nat :=
  (s.padValue Od.GPIO_DIR s.boot.padDir 0, s.padValue Od.GPIO_OUT s.boot.padOut 0,
   s.padValue Od.GPIO_PULL s.boot.padPull (2 ^ 13 - 1))

/-- Number of the latest sample of the balls, taken every 1 µs of the device timestamp (R77; log entry 42). -/
def State.padSample (s : State) : Nat := (s.now - s.tB) / 1000

/-- The balls' settings have changed since the latest sample. -/
def State.padsMoved (s : State) : Bool := s.tB + 1000 * s.padSample < s.boot.padAt

/-- The settings of the balls are about to change: those of the latest sample are kept (R77). -/
def State.keepPads (s : State) : State :=
  if s.padsMoved then s
  else { s with boot := { s.boot with padAt := s.now, padWas := s.pads } }

/-! ## What leaves the device -/

def State.emit (s : State) (o : Out) : State := { s with out := o :: s.out }

/-- TICK_OUT shows a level (R65, R75, R80). -/
def State.driveTickOut (s : State) (l : PinLevel) : State :=
  if s.tick.pin == l then s else { s with tick := { s.tick with pin := l } }.emit (.tickOut l)

/-- The session of a node. -/
def State.session (s : State) (node : Nat) : Option Session := s.bap.sessions.find? (fun x => x.node == node)

def State.endSession (s : State) (node : Nat) : State :=
  { s with bap := { s.bap with sessions := s.bap.sessions.filter (fun x => x.node != node) } }

/-- A session replaced by its new value; it ends when either count reached 0xFFFF_FFFF (R43). -/
def State.putSession (s : State) (x : Session) : State :=
  let rest := s.bap.sessions.filter (fun y => y.node != x.node)
  { s with bap := { s.bap with
      sessions := if x.lastRx ≥ 0xFFFFFFFF || x.lastTx ≥ 0xFFFFFFFF then rest else rest ++ [x] } }

/-- The BAP header of R33. -/
def bapHeader (resp auth : Bool) (opcode seq dst src len : Nat) : List Byte :=
  [BitVec.ofNat 8 (0x10 + (if resp then 8 else 0) + (if auth then 4 else 0)), BitVec.ofNat 8 opcode] ++
    toBe 2 seq ++ [BitVec.ofNat 8 dst, BitVec.ofNat 8 src] ++ toBe 2 len

/-- The trailer of R42 without its tag. -/
def trailerHead (x : Session) (count : Nat) : List Byte :=
  [BitVec.ofNat 8 x.keyId, 0, 0, 0] ++ toBe 4 count

/-- The first 16 bytes of HMAC-SHA-256 over header, payload and trailer head (R42). -/
def bapTag (x : Session) (body : List Byte) : List Byte := (hmacSha256 x.sk body).take 16

/-- Header, payload and trailer under a session. -/
def sealFrame (x : Session) (count : Nat) (body : List Byte) : List Byte :=
  let t := trailerHead x count
  body ++ t ++ bapTag x (body ++ t)

/-- The bytes after the EtherType as they are sent: a frame shorter than the Ethernet minimum of 60 bytes is padded with
zeros, PRESUMED, to 46 bytes after its 14 header bytes (R33; log entry 49). -/
def padFrame (b : List Byte) : List Byte := b ++ zeroBytes (46 - b.length)

def broadcastMac : Nat := 0xFFFFFFFFFFFF

/-- A frame to a node leaves behind every frame already owed to that node (R31, R53). DESIGN CHOICE: a frame to node 0xFF
is owed to no one node and waits behind none (log entry 49). -/
def State.sendTo (s : State) (node mac : Nat) (b : List Byte) : State :=
  if s.bap.waiting.any (fun w => w.node == node) then
    let w : Waiting := { node := node, mac := mac, due := 0, frame := some b, after := none }
    { s with bap := { s.bap with waiting := s.bap.waiting ++ [w] } }
  else s.emit (.frame mac b)

/-- A NOTIFY frame to a node and MAC address (R54). DESIGN CHOICE: kinds 2 to 4 carry the result OK, which the spec does not
give (log entry 49). -/
def State.notifyTo (s : State) (node mac kind result handle : Nat) : State :=
  if !s.netUp then s else
  let seq := (s.bap.notifySeq + 1) % 2 ^ 16
  let payload := [BitVec.ofNat 8 kind, 0] ++ toBe 2 result ++ toBe 4 handle ++ toBe 8 s.ts
  let s := { s with bap := { s.bap with notifySeq := seq } }
  match s.session node with
  | some x =>
    let count := x.lastTx + 1
    let body := bapHeader false true 0x10 seq node (s.get Od.NODE_ID) payload.length ++ payload
    (s.putSession { x with lastTx := count }).sendTo node mac (padFrame (sealFrame x count body))
  | none =>
    s.sendTo node mac (padFrame (bapHeader false false 0x10 seq node (s.get Od.NODE_ID) payload.length ++ payload))

/-- A NOTIFY that is not bound to a BAP origin goes to `NOTIFY_DEST` (R55). -/
def State.notifyDest (s : State) (kind result handle : Nat) : State :=
  let node := s.get Od.NOTIFY_DEST
  let mac := if node == 0xFF then broadcastMac else mgetD s.bap.macs node broadcastMac
  s.notifyTo node mac kind result handle

/-! ## MSI-X and the host interrupt -/

def State.win (s : State) (fn : Nat) : Win := mgetD s.wins fn Reset.win

def State.setWin (s : State) (fn : Nat) (w : Win) : State := { s with wins := mput Reset.win s.wins fn w }

/-- Mask bit of an MSI-X vector: set until the host clears it (log entry 11). -/
def Win.masked (w : Win) (v : Nat) : Bool := bitOf (mgetD w.msixTable (4 * v + 3) 1) 0

/-- MSI-X vector v of function fn (R137): sent, or pending while its mask bit is set. -/
def State.msix (s : State) (fn v : Nat) : State :=
  if !s.boot.pcieUp then s else
  let w := s.win fn
  if w.masked v then s.setWin fn { w with msixPending := mset w.msixPending v 1 }
  else s.emit (.msix fn v)

/-- Set a bit of `IRQ_PEND` (R76). -/
def State.irq (s : State) (b : Nat) : State := s.set Od.IRQ_PEND (orN (s.get Od.IRQ_PEND) (2 ^ b))

/-- HOST_IRQ_N is driven low (R76, R80). -/
def State.hostIrqLow (s : State) : Bool :=
  s.alive && ((s.on Od.SCARE_IRQ_PIN && s.get Od.SCARE_STAGE == 1) ||
    (s.get Od.IRQ_PEND &&& s.get Od.IRQ_MASK) != 0)

/-! ## Events (R357 to R359) -/

/-- Entry e is acknowledged: it lies below `EVT_ACK`, modulo 2^32 (R359). -/
def acked (ack e : Nat) : Bool := let d := subMod 32 ack e; 0 < d && d < 2 ^ 31

/-- Post one event (R357): the next log entry, a NOTIFY under `EVT_NOTIFY_MASK` and `IRQ_PEND` bit 1. -/
def State.postN (s : State) (cls code count index unit arg : Nat) : State :=
  let e := s.get Od.EVT_NEXT
  let ev : Event := { ts := s.ts, number := e, cls := cls, code := code, count := min count 0xFFFF, index := index,
                      unit := unit, tick := s.get Od.TICK_COUNT % 2 ^ 32, arg := arg }
  let lost := match mget s.events (e % 1024) with
    | some o => !acked (s.get Od.EVT_ACK) o.number
    | none => false
  let s := { s with events := mset s.events (e % 1024) ev }
  let s := s.when lost (·.inc Od.EVT_LOST)
  let s := s.set Od.EVT_NEXT (e + 1)
  let s := s.when (bitOf (s.get Od.EVT_NOTIFY_MASK) cls) (·.notifyDest 2 Ab.OK e)
  s.when (bitOf (s.get Od.IRQ_EVT_MASK) cls) (·.irq 1)

def State.post (s : State) (cls code index unit arg : Nat) : State := s.postN cls code 1 index unit arg

/-- Two occurrences that share one event of a tick: display events are one per pipe, the others one per tick. -/
def sameGather (a b : Gather) : Bool :=
  a.cls == b.cls && a.code == b.code && (a.cls != 4 || a.unit == b.unit)

/-- A tick runs: the first one after `TICK_EN` was set has begun (R14). -/
def State.inTick (s : State) : Bool := s.on Od.TICK_EN && s.tick.since != 0

/-- Gather an occurrence of an event that is posted once per tick (R358); while no tick runs it is posted at once. -/
def State.gatherN (s : State) (cls code index unit arg count : Nat) : State :=
  let g : Gather := { cls := cls, code := code, index := index, unit := unit, arg := arg, count := count }
  if !s.inTick then s.postN cls code count index unit arg
  else if s.gather.any (sameGather g) then
    { s with gather := s.gather.map (fun o => if sameGather g o then { o with count := o.count + count } else o) }
  else { s with gather := s.gather ++ [g] }

/-- Post the events gathered in the tick that ends (R358). -/
def State.flushGather (s : State) : State :=
  s.gather.foldl (fun s g => s.postN g.cls g.code g.count g.index g.unit g.arg) { s with gather := [] }

/-- The 32 bytes of a log entry (R357). -/
def Event.bytes (e : Event) : List Byte :=
  toLe 8 e.ts ++ toLe 4 e.number ++ toLe 1 e.cls ++ toLe 1 e.code ++ toLe 2 e.count ++ toLe 2 e.index ++
    toLe 1 e.unit ++ [0] ++ toLe 4 e.tick ++ toLe 8 e.arg

/-- The content of `EVT_LOG`: 1,024 entries of 32 bytes. -/
def State.eventLog (s : State) : List Byte :=
  (List.range 1024).flatMap (fun i => match mget s.events i with
    | some e => e.bytes
    | none => zeroBytes 32)

/-! ## Long operations (R50 to R56) -/

/-- Generation of a handle-table slot. -/
def State.gen (s : State) (slot : Nat) : Nat := mgetD s.gens slot 0

/-- The dictionary handle of R51. -/
def dictHandle (gen slot : Nat) : Nat := gen % 2 ^ 16 * 256 + slot

/-- The slot that the next operation takes (R52). -/
def State.pickSlot (s : State) : Option Nat :=
  match (List.range 256).find? (fun i => s.get (Od.STATE i) == 0) with
  | some i => some i
  | none =>
    let done := (List.range 256).filter (fun i => s.get (Od.STATE i) == 2)
    done.foldl (fun b i => match b with
      | none => some i
      | some j => if s.get (Od.DONE_TS i) < s.get (Od.DONE_TS j) then some i else some j) none

/-- `ORIGIN` of a path (R63); for the firmware's own operations the spec states none. -/
def State.originOf (s : State) : Path → Nat
  | .bap node _ _ => node % 256
  | .pcie fn => 0x8000 + fn.val
  | .fw => s.free % 2 ^ 16

/-- Start a long operation: the slot, the handle and the state, or none when every slot is RUNNING (R52). DESIGN CHOICE:
`RESULT`, `PROGRESS` and `DONE_TS` read 0 until R53 writes them (log entry 49). -/
def State.startOp (s : State) (kind : OpKind) (via : Path) (key : Nat) : Option (Nat × State) :=
  match s.pickSlot with
  | none => none
  | some i =>
    let g := (s.gen i + 1) % 2 ^ 16
    let h := dictHandle g i
    let o := s.originOf via
    let s := if via == .fw then s.spend else s
    let op : LongOp := { slot := Fin.ofNat 256 i, kind := kind, origin := via }
    let s : State := { s with gens := mput 0 s.gens i g, ops := s.ops ++ [op] }
    some (h, s.sets [(Od.HANDLE i, h), (Od.OPERATION i, key), (Od.STATE i, 1), (Od.RESULT i, 0),
                     (Od.PROGRESS i, 0), (Od.ORIGIN i, o), (Od.DONE_TS i, 0)])

/-- Complete a long operation in the order of R53. -/
def State.finishOp (s : State) (slot result : Nat) : State :=
  match s.ops.find? (fun o => o.slot.val == slot) with
  | none => s
  | some o =>
    let s : State := { s with ops := s.ops.filter (fun o => o.slot.val != slot) }
    let s := s.sets [(Od.RESULT slot, result), (Od.DONE_TS slot, s.ts), (Od.PROGRESS slot, 100), (Od.STATE slot, 2)]
    let h := s.get (Od.HANDLE slot)
    let s := s.irq 2
    match o.origin with
    | .bap node mac _ => s.notifyTo node mac 1 result h
    | .pcie fn => (s.notifyDest 1 result h).msix fn.val 0
    | .fw => s.notifyDest 1 result h

/-- An operation of a kind is running. -/
def State.opRunning (s : State) (k : OpKind) : Bool := s.ops.any (fun o => o.kind == k)

/-- A self-test is running (R378). -/
def State.selftesting (s : State) : Bool := s.ops.any (fun o => match o.kind with
  | .selftest _ => true
  | _ => false)

/-- Free every slot and make every handle stale (R56). -/
def State.dropOps (s : State) : State :=
  { s with ops := [], gens := (List.range 256).foldl (fun m i => mput 0 m i ((mgetD m i 0 + 1) % 2 ^ 16)) s.gens }

/-! ## Straps (R69) -/

def State.straps (s : State) : Nat := s.get Od.STRAP_RAW
def State.strapP0If (s : State) : Nat := bitsOf s.straps 9 2
def State.strapPcie (s : State) : Bool := bitOf s.straps 8
def State.strapDevId (s : State) : Nat := bitsOf s.straps 3 3
def State.strapFollower (s : State) : Bool := bitOf s.straps 2

/-- `BOOT_SRC` as R71 resolves it: PCIe without PCIE_EN boots as for hold. -/
def State.bootSrc (s : State) : Nat :=
  let b := bitsOf s.straps 6 2
  if b == 1 && !s.strapPcie then 3 else b

/-- Predicted period ÷ 256, in 1/256 ns: the predicted period itself (R11). -/
def State.predictedNow (s : State) : Nat :=
  if s.on Od.TICK_EN && s.tick.since > 0 then s.tick.predicted else s.get Od.GEN_PERIOD_NS

/-- `RELOCK_BUCKETS` (R103): ⌈25 µs ÷ (predicted period ÷ 256)⌉. -/
def State.relockBuckets (s : State) : Nat := ceilDiv (25000 * 256) s.predictedNow

end Sys2Proof.Machine
end

