-- ==== Sys2Proof/Machine/MemOps.lean ====
section
/-! DEFINITION. Memory: the DRAM map, translation, partitions, block compression and uncorrectable errors. -/

namespace Sys2Proof.Machine

/-- Usable DRAM bytes (R115). -/
def State.usable (s : State) : Nat := if s.on Od.INLINE_ECC then 0x3BE000000 else 0x3FE000000

def mib2 : Nat := 0x200000

/-- A physical place: a DRAM address, a Millpond offset (bank × 2 MiB + offset), or a host bus address of a function. -/
inductive Phys where
  | dram (a : Nat)
  | mill (a : Nat)
  | host (fn a : Nat)
  deriving DecidableEq, Repr

/-! ## Errors in storage (R112 to R114) -/

/-- An uncorrectable error: counted, its address recorded, one event posted (R114). -/
def State.uncorr (s : State) (addr : Nat) : State :=
  ((s.inc Od.ECC_UNCORR).set Od.ECC_LAST_ADDR addr).post 2 1 0x9000 0 addr

/-- Damaged content of a unit is open (log entry 2). -/
def damage (m : Map Byte) (a : Nat) (l : List Byte) : Map Byte :=
  (l.zipIdx.foldl (fun m e => mput 0 m (a + e.2) e.1)) m

/-- Bytes that a read through C = 1 takes from the slot of a block of a code (R127). -/
def codeBytes (code : Nat) : Nat := if code == 8 || code == 9 then 0 else if 1 ≤ code && code ≤ 7 then 32 * code else 256

/-- Damage to `n` stored bytes at `a`, in a block of a code. The content of a compressed block depends on all the bytes
of its code and on no others of its slot (R127). -/
def damageIn (m : Map Byte) (code a n : Nat) (s : State) : Map Byte :=
  if code == 0 || 0xA ≤ code then damage m a (s.freeBytes n)
  else if a % 256 < codeBytes code then damage m (a / 256 * 256) (s.freeBytes 256)
  else m

/-- One error strikes. Cells of DRAM are protected only while inline ECC is on (R113); log entry 12. -/
def State.upset (s : State) (u : Upset) : State :=
  match u.arr, u.kind with
  | .dram, .link => s.inc Od.LINK_ECC_CORR
  | .dram, .corrected =>
    if s.on Od.INLINE_ECC then s.inc Od.ECC_CORR
    else if u.addr < s.usable then
      { s.spend with mem := { s.mem with
          dram := damageIn s.mem.dram (mgetD s.mem.metaDram (u.addr / 256) 0) u.addr 1 s } }
    else s
  | .dram, .uncorrectable =>
    if u.addr < s.usable then
      let k := u.addr / 32
      { s.spend with mem := { s.mem with
          dram := damageIn s.mem.dram (mgetD s.mem.metaDram (u.addr / 256) 0) (32 * k) 32 s,
          badDram := if s.on Od.INLINE_ECC then k :: s.mem.badDram.filter (· != k) else s.mem.badDram } }
    else s
  | .millpond, .corrected => s.inc Od.MP_ECC_CORR
  | .millpond, .uncorrectable =>
    if u.addr < 32 * mib2 then
      let k := u.addr / 8
      { s.spend with mem := { s.mem with
          millpond := damageIn s.mem.millpond (mgetD s.mem.metaMill (u.addr / 256) 0) (8 * k) 8 s,
          badMill := k :: s.mem.badMill.filter (· != k) } }
    else s
  | .millpond, .link => s

def State.upsets (s : State) (l : List Upset) : State := l.foldl State.upset s

/-! ## Requests (R122, R131) -/

/-- DRAM leaves self-refresh (R131). -/
def State.wakeDram (s : State) : State :=
  match s.mem.refresh with
  | .asleep t =>
    let s := s.set Od.SR_TIME_NS (s.get Od.SR_TIME_NS + (s.now - t))
    { s with mem := { s.mem with refresh := .awake } }
  | .awake => s

/-- A DRAM request: it wakes DRAM and restarts the idle time. -/
def State.touchDram (s : State) : State :=
  let s := s.wakeDram
  { s with mem := { s.mem with lastReq := s.now } }

/-- An access to a Millpond bank ends its retention (R122). -/
def State.touchBank (s : State) (b : Nat) : State :=
  { s with mem := { s.mem with retained := s.mem.retained.filter (· != b), bankUse := mset s.mem.bankUse b s.now } }

def State.touch (s : State) : Phys → State
  | .dram _ => s.touchDram
  | .mill a => s.touchBank (a / mib2)
  | .host _ _ => s

/-! ## Stored bytes and compression codes (R126 to R128) -/

def hostKey (fn a : Nat) : Nat := fn * 2 ^ 56 + a % 2 ^ 56

/-- The logical byte held at a place. -/
def State.cell (s : State) : Phys → Byte
  | .dram a => mgetD s.mem.dram a 0
  | .mill a => mgetD s.mem.millpond a 0
  | .host fn a => mgetD s.mem.host (hostKey fn a) 0

def State.setCell (s : State) (p : Phys) (b : Byte) : State :=
  match p with
  | .dram a => { s with mem := { s.mem with dram := mput 0 s.mem.dram a b } }
  | .mill a => { s with mem := { s.mem with millpond := mput 0 s.mem.millpond a b } }
  | .host fn a => { s with mem := { s.mem with host := mput 0 s.mem.host (hostKey fn a) b } }

def Phys.plus : Phys → Nat → Phys
  | .dram a, n => .dram (a + n)
  | .mill a, n => .mill (a + n)
  | .host f a, n => .host f (a + n)

def Phys.addr : Phys → Nat
  | .dram a => a
  | .mill a => a
  | .host _ a => a

/-- The 256-byte block that holds a place. -/
def Phys.block (p : Phys) : Phys :=
  match p with
  | .dram a => .dram (a / 256 * 256)
  | .mill a => .mill (a / 256 * 256)
  | .host f a => .host f (a / 256 * 256)

def State.cells (s : State) (p : Phys) (n : Nat) : List Byte := (List.range n).map (fun i => s.cell (p.plus i))

def State.setCells (s : State) (p : Phys) (l : List Byte) : State :=
  (l.foldl (fun (x : State × Nat) b => (x.1.setCell (p.plus x.2) b, x.2 + 1)) (s, 0)).1

/-- The metadata code of the block at a place (R127). -/
def State.code (s : State) : Phys → Nat
  | .dram a => mgetD s.mem.metaDram (a / 256) 0
  | .mill a => mgetD s.mem.metaMill (a / 256) 0
  | .host _ _ => 0

def State.setCode (s : State) (p : Phys) (c : Nat) : State :=
  match p with
  | .dram a => { s with mem := { s.mem with metaDram := mput 0 s.mem.metaDram (a / 256) c } }
  | .mill a => { s with mem := { s.mem with metaMill := mput 0 s.mem.metaMill (a / 256) c } }
  | .host _ _ => s

/-- The stored bytes of a coded block as they lie (R128): known to the device alone. -/
def storedView (content : List Byte) : List Byte := padTo 256 (Config.blockStored content)

/-- Damaged units that a range of places meets: unit number, whole unit covered, address for `ECC_LAST_ADDR`. -/
def State.badUnits (s : State) (p : Phys) (n : Nat) : List (Nat × Bool × Nat) :=
  match p with
  | .dram a => (s.mem.badDram.filter (fun k => 32 * k < a + n && a < 32 * k + 32)).map
      (fun k => (k, a ≤ 32 * k && 32 * k + 32 ≤ a + n, 32 * k))
  | .mill a => (s.mem.badMill.filter (fun k => 8 * k < a + n && a < 8 * k + 8)).map
      (fun k => (k, a ≤ 8 * k && 8 * k + 8 ≤ a + n, 2 ^ 63 + 8 * k))
  | .host _ _ => []

def State.healUnit (s : State) (p : Phys) (k : Nat) : State :=
  match p with
  | .dram _ => { s with mem := { s.mem with badDram := s.mem.badDram.filter (· != k) } }
  | .mill _ => { s with mem := { s.mem with badMill := s.mem.badMill.filter (· != k) } }
  | .host _ _ => s

/-- DRAM serves no access: a retraining runs (R111). -/
def State.shut (s : State) : Phys → Bool
  | .dram _ => s.opRunning .memTrain
  | _ => false

/-- Damaged units that a read of n bytes at a place meets: through C = 1 it takes the bytes of the block's code, and
of an uncompressed block those of the place (R127). -/
def State.badRead (s : State) (p : Phys) (c : Bool) (n : Nat) : List (Nat × Bool × Nat) :=
  let code := s.code p
  if c && 1 ≤ code && code ≤ 9 then s.badUnits p.block (codeBytes code) else s.badUnits p n

/-- Read up to 256 bytes inside one block through an entry with bit C = `c`; the flag says that an uncorrectable
error was read (R114, R127, R128). -/
def State.rdServed (s : State) (p : Phys) (c : Bool) (n : Nat) : State × List Byte × Bool :=
  let s := s.touch p
  let bad := s.badRead p c n
  let s := bad.foldl (fun s u => s.uncorr u.2.2) s
  let code := s.code p
  let s := s.when (c && code ≥ 0xA) (·.inc Od.CMP_META_ERR)
  let data := if !c && code != 0
    then slice (storedView (s.cells p.block 256)) (p.addr % 256) n
    else s.cells p n
  (s, data, !bad.isEmpty)

/-- A read of a chunk. What a read finds while DRAM serves no access is open (log entry 51). -/
def State.rdChunk (s : State) (p : Phys) (c : Bool) (n : Nat) : State × List Byte × Bool :=
  if s.shut p then (s.spend, s.freeBytes n, false) else s.rdServed p c n

/-- The code of a block written through C = 1 (R127, R159). -/
def codeFor (content : List Byte) (clear : Option Byte) : Nat :=
  if content.all (· == 0) then 9
  else match clear with
    | some b => if content.all (· == b) then 8 else Config.blockCode content % 8
    | none => Config.blockCode content % 8

/-- A write meets damaged units: one that it covers whole gets new check bits; one whose other bytes it must merge
stays uncorrectable, which counts (R114). A block whose code takes no bytes has nothing to merge. -/
def State.mergeUnits (s : State) (p : Phys) (c : Bool) (n : Nat) : State :=
  let code := s.code p
  if c && 1 ≤ code && code ≤ 9 then
    let kept := s.badUnits p.block (codeBytes code)
    (s.badUnits p.block 256).foldl (fun s u =>
      if n == 256 || !kept.contains u then s.healUnit p u.1 else s.uncorr u.2.2) s
  else (s.badUnits p n).foldl (fun s u => if u.2.1 then s.healUnit p u.1 else s.uncorr u.2.2) s

/-- Write up to 256 bytes inside one block (R114, R128). A write to DRAM during a retraining waits for its end (R111). -/
def State.wrChunk (s : State) (p : Phys) (c : Bool) (data : List Byte) (clear : Option Byte) : State :=
  if s.shut p then { s with mem := { s.mem with waiting := s.mem.waiting ++ [(p.addr, c, data, clear)] } } else
  let s := (s.touch p).mergeUnits p c data.length
  if c then
    let s := s.setCells p data
    s.setCode p (codeFor (s.cells p.block 256) clear)
  else
    let s := if s.code p != 0 then (s.setCells p.block (storedView (s.cells p.block 256))).setCode p 0 else s
    s.setCells p data

/-! ## Partitions (R121) -/

def State.partBanks (s : State) (p : Nat) : Nat := s.get (Od.PART_ACT_BANKS p)

/-- Bytes of an active partition. -/
def State.partBytes (s : State) (p : Nat) : Nat := s.partBanks p * mib2

/-- The Millpond offset of byte o of an active partition (R121). -/
def State.partPhys (s : State) (p o : Nat) : Phys :=
  let n := s.partBanks p
  .mill ((s.get (Od.PART_ACT_FIRST_BANK p) + (o / 256) % n) * mib2 + (o / 256 / n) * 256 + o % 256)

/-! ## Translation (R116 to R120) -/

/-- A page-table entry read from DRAM; none when it reads an uncorrectable error or leaves usable DRAM. -/
def State.rdEntry (s : State) (a : Nat) : State × Option Nat :=
  let r := s.rdServed (.dram a) false 8
  (r.1, if r.2.2 then none else some (le r.2.1))

/-- A table of 32 KiB lies wholly in usable DRAM. -/
def State.tableOk (s : State) (a : Nat) : Bool := a + 0x8000 ≤ s.usable

def cacheKey (cl va : Nat) : Nat := cl * 2 ^ 24 + va / 2 ^ 16 % 2 ^ 24

/-- The level-2 entry of an address: from the cache, or by a walk that then caches it (R116, R120; log entry 13). -/
def State.walk (s : State) (cl va : Nat) : State × Option Nat :=
  match mget s.mem.cache (cacheKey cl va) with
  | some e => (s, some e)
  | none =>
    let root := s.get (Od.XLAT_ROOT cl)
    if !s.tableOk root then (s, none) else
    match s.rdEntry (root + 8 * bitsOf va 28 12) with
    | (s, none) => (s, none)
    | (s, some e1) =>
      let t := bitsOf e1 15 25 * 2 ^ 15
      if !bitOf e1 63 || bitsOf e1 40 23 != 0 || bitsOf e1 0 15 != 0 || !s.tableOk t then (s, none) else
      match s.rdEntry (t + 8 * bitsOf va 16 12) with
      | (s, none) => (s, none)
      | (s, some e2) =>
        if !bitOf e2 63 then (s, none)
        else ({ s with mem := { s.mem with cache := mset s.mem.cache (cacheKey cl va) e2 } }, some e2)

/-- Where a level-2 entry leads, with its bit C; none is a translation fault (R118, R119). -/
def State.leaf (s : State) (cl e va : Nat) (write : Bool) : Option (Phys × Bool) :=
  let target := bitsOf e 61 2
  let c := bitOf e 59
  let page := bitsOf e 16 40
  let off := va % 2 ^ 16
  if bitsOf e 56 3 != 0 || bitsOf e 0 16 != 0 || (write && !bitOf e 60) then none
  else if target == 0 then
    if page * 2 ^ 16 + 2 ^ 16 ≤ s.usable then some (.dram (page * 2 ^ 16 + off), c) else none
  else if target == 1 then
    let p := bitsOf page 10 4
    let pg := bitsOf page 0 10
    let owner := s.get (Od.PART_ACT_OWNER p)
    if bitsOf page 14 26 != 0 || s.partBanks p == 0 || (owner != cl && owner != 0xFF)
        || pg * 2 ^ 16 + 2 ^ 16 > s.partBytes p then none
    else some (s.partPhys p (pg * 2 ^ 16 + off), c)
  else if target == 2 then
    if c then none else some (.host cl (page * 2 ^ 16 + off), false)
  else none

/-- The place of a virtual address of client cl, or none for a translation fault (R116, R119). -/
def State.resolve (s : State) (cl va : Nat) (write : Bool) : State × Option (Phys × Bool) :=
  if va ≥ 2 ^ 40 then (s, none)
  else if !s.on (Od.XLAT_EN cl) then
    if cl == 0 && va < s.usable then (s, some (.dram va, false)) else (s, none)
  else
    match s.walk cl va with
    | (s, none) => (s, none)
    | (s, some e) => (s, s.leaf cl e va write)

/-- Record a faulting access of a client (R119). -/
def State.xlatFault (s : State) (cl va : Nat) : State :=
  (s.set (Od.XLAT_FAULT_VA cl) va).inc (Od.XLAT_FAULT_COUNT cl)

/-- An access needs DRAM: its page lies there, or its translation must be walked. -/
def State.needsDram (s : State) (cl va n : Nat) : Bool :=
  (s.on (Od.XLAT_EN cl) && (mget s.mem.cache (cacheKey cl va)).isNone) ||
    (rangeFrom (va / 2 ^ 16) ((va + n) / 2 ^ 16 + 1 - va / 2 ^ 16)).any (fun pg =>
      match (s.resolve cl (pg * 2 ^ 16) false).2 with
      | some (.dram _, _) => true
      | _ => false)

/-- Split a range at the 256-byte blocks it meets: offset from the start, and length. -/
def chunks : Nat → Nat → Nat → Nat → List (Nat × Nat)
  | 0, _, _, _ => []
  | fuel + 1, va, done, n =>
    if n == 0 then [] else
    let len := min n (256 - va % 256)
    (done, len) :: chunks fuel (va + len) (done + len) (n - len)

def chunksOf (va n : Nat) : List (Nat × Nat) := chunks (n / 256 + 2) va 0 n

/-- Read n bytes of a client's virtual memory. After the first fault nothing more is read, and the rest is zeros. -/
def State.rd (s : State) (cl va n : Nat) : State × List Byte × Option MemFault :=
  (chunksOf va n).foldl (fun (x : State × List Byte × Option MemFault) ch =>
    let (s, out, f) := x
    if f.isSome then (s, out ++ zeroBytes ch.2, f) else
    match s.resolve cl (va + ch.1) false with
    | (s, none) => (s.xlatFault cl (va + ch.1), out ++ zeroBytes ch.2, some ⟨4, va + ch.1⟩)
    | (s, some (p, c)) =>
      let r := s.rdChunk p c ch.2
      (r.1, out ++ r.2.1, if r.2.2 then some ⟨5, 0⟩ else none)) (s, [], none)

/-- Read n bytes for a reader that goes on after errors: a display fetch, a seam or a frame (R114, R119): the
faults are reported, the data are as read. -/
def State.rdThrough (s : State) (cl va n : Nat) : State × List Byte × Option MemFault :=
  (chunksOf va n).foldl (fun (x : State × List Byte × Option MemFault) ch =>
    let (s, out, f) := x
    match s.resolve cl (va + ch.1) false with
    | (s, none) => (s.xlatFault cl (va + ch.1), out ++ zeroBytes ch.2, f.or (some ⟨4, va + ch.1⟩))
    | (s, some (p, c)) =>
      let r := s.rdChunk p c ch.2
      (r.1, out ++ r.2.1, f)) (s, [], none)

/-- Write bytes to a client's virtual memory, up to the first fault. -/
def State.wrClear (s : State) (cl va : Nat) (data : List Byte) (clear : Option Byte) : State × Option MemFault :=
  (chunksOf va data.length).foldl (fun (x : State × Option MemFault) ch =>
    let (s, f) := x
    if f.isSome then (s, f) else
    match s.resolve cl (va + ch.1) true with
    | (s, none) => (s.xlatFault cl (va + ch.1), some ⟨4, va + ch.1⟩)
    | (s, some (p, c)) => (s.wrChunk p c (slice data ch.1 ch.2) clear, none)) (s, none)

def State.wr (s : State) (cl va : Nat) (data : List Byte) : State × Option MemFault := s.wrClear cl va data none

/-- Translate every page of a range: the first faulting address, and the C bits met (R159). -/
def State.probe (s : State) (cl va n : Nat) (write : Bool) : State × Option Nat × List Bool :=
  if n == 0 then (s, none, []) else
  (rangeFrom (va / 2 ^ 16) ((va + n - 1) / 2 ^ 16 + 1 - va / 2 ^ 16)).foldl
    (fun (x : State × Option Nat × List Bool) pg =>
      let (s, f, cs) := x
      if f.isSome then x else
      let a := max va (pg * 2 ^ 16)
      match s.resolve cl a write with
      | (s, none) => (s, some a, cs)
      | (s, some (_, c)) => (s, none, cs ++ [c])) (s, none, [])

/-- Discard the cached entries of a client (R120). -/
def State.dropCache (s : State) (cl : Nat) : State :=
  { s with mem := { s.mem with cache := s.mem.cache.filter (fun e => e.1 / 2 ^ 24 != cl) } }

/-- Bytes of a partition, without translation (R298). -/
def State.rdPart (s : State) (p o n : Nat) : State × List Byte :=
  (chunksOf o n).foldl (fun (x : State × List Byte) ch =>
    let r := x.1.rdChunk (x.1.partPhys p (o + ch.1)) false ch.2
    (r.1, x.2 ++ r.2.1)) (s, [])

def State.wrPart (s : State) (p o : Nat) (data : List Byte) : State :=
  (chunksOf o data.length).foldl (fun s ch => s.wrChunk (s.partPhys p (o + ch.1)) false (slice data ch.1 ch.2) none) s

/-- Zero-fill whole Millpond banks, their codes and their errors (R124, R125). -/
def MemSt.zeroBanks (m : MemSt) (b : Nat → Bool) : MemSt :=
  { m with millpond := m.millpond.filter (fun e => !b (e.1 / mib2)),
           metaMill := m.metaMill.filter (fun e => !b (e.1 * 256 / mib2)),
           badMill := m.badMill.filter (fun k => !b (k * 8 / mib2)),
           retained := m.retained.filter (fun k => !b k) }

end Sys2Proof.Machine
end

