-- ==== Sys2Proof/Machine/Jobs.lean ====
section
/-! DEFINITION. Jobs: lookup, flags and fences, waits, signals, faults, completion records and aborts. -/

namespace Sys2Proof.Machine

/-! ## Jobs -/

/-- A PRESENT that has been checked: its job waits for the latch and the release of its buffer, and runs no more
(R321, R322). -/
def Job.presented (j : Job) : Bool := engineOf j.id.q.val == 4 && j.blocked

def State.job (s : State) (id : JobId) : Option Job := s.qs.jobs.find? (fun j => j.id == id)

def State.putJob (s : State) (j : Job) : State :=
  { s with qs := { s.qs with jobs := s.qs.jobs.map (fun o => if o.id == j.id then j else o) } }

def State.dropJob (s : State) (id : JobId) : State :=
  { s with qs := { s.qs with jobs := s.qs.jobs.filter (fun o => o.id != id) } }

/-- Outstanding jobs of a queue, in the order of their submission. -/
def State.jobsOf (s : State) (q : Nat) : List Job := s.qs.jobs.filter (fun j => j.id.q.val == q)

/-- The job next in line of a queue: the first that has not started (R143). -/
def State.nextInLine (s : State) (q : Nat) : Option Job := (s.jobsOf q).find? (fun j => j.phase == .queued)

/-! Status codes (R149). -/
namespace St
def OK : Nat := 0
def ABORTED : Nat := 1
def DEPENDENCY_ABORTED : Nat := 2
def DEADLINE_MISSED : Nat := 3
def ILL_POSED : Nat := 4
def DEFERRED : Nat := 5
def PARKED : Nat := 6
def FAULT : Nat := 7
end St

/-- A unit no longer runs a job. -/
def SchedSt.release (c : SchedSt) (id : JobId) : SchedSt :=
  { c with running := c.running.filter (fun e => e.2 != id), incoming := c.incoming.filter (fun e => e.2.1 != id) }

/-- A client may name a flag or fence (R153). -/
def State.mayName (s : State) (client : Nat) (fence : Bool) (id : Nat) : Bool :=
  let top := if fence then 1024 else 256
  let base := s.get (if fence then Od.CL_FENCE_BASE client else Od.CL_SLUICE_BASE client)
  let count := s.get (if fence then Od.CL_FENCE_COUNT client else Od.CL_SLUICE_COUNT client)
  id < top && (client == 0 || (base ≤ id && id < base + count))

/-- Streams of a VX_DETECT or VX_TRACK whose flags its client may name, with their `FLAG_VALUE` (R275, R284). -/
def State.streamFlags (s : State) (client : Nat) (b : List Byte) : List (Nat × Nat) :=
  ((List.range 16).filter (fun v => bitOf (fld b 24 2) v && s.get (Od.VS_FLAG v) != 0xFFFF &&
    s.mayName client false (s.get (Od.VS_FLAG v)))).map (fun v => (v, fld b 28 4))

/-- A vision queue's command that selects streams. -/
def selectsStreams (q : Nat) (b : List Byte) : Bool := 64 ≤ q && q < 80 && (slotOpcode b == 0x10 || slotOpcode b == 0x11)

/-- The stream flags that a job still owes (R284): those of the command it is in, and of the commands it has not begun. -/
def State.owed (s : State) (j : Job) : List (Nat × Nat) :=
  let q := j.id.q.val
  let within := s.vision.works.any (fun w => w.job == j.id)
  let of_ := fun (c : List Byte) => if selectsStreams q c then s.streamFlags j.client c else []
  (if within then j.poisons else []) ++
    (if 64 ≤ q && q < 80 && slotOpcode j.slot == 1 then
      let first := if within then j.taken + 1 else j.taken
      (rangeFrom first (min (fld j.slot 32 4) 65535 - first)).flatMap (fun i =>
        of_ (s.rd j.client (fld j.slot 24 8 + 64 * i) 64).2.1)
    else if within then [] else of_ j.slot)

/-- A job has finished its work with a status and `DETAIL` bytes 16 to 31; its record is still to be written. -/
def State.finishJob (s : State) (j : Job) (status : Nat) (detail : List Byte) : State :=
  let owed := if status == St.ABORTED || status == St.FAULT then s.owed j else []
  let s := s.putJob { j with phase := .finished, status := status, detail := padTo 16 detail, blocked := false, poisons := owed }
  { s with sched := s.sched.release j.id }

/-- `DETAIL` of a FAULT (R149): cause, list index, structure index plus 1, field offset or reason, address. -/
def faultDetail (cause list struct off va : Nat) : List Byte :=
  toLe 2 cause ++ toLe 2 list ++ toLe 2 struct ++ toLe 2 off ++ toLe 8 va

/-- List index of the command in progress, counted from 1; 0 for the slot itself (log entry 14). -/
def Job.listIndex (j : Job) : Nat := if j.inList then j.taken + 1 else 0

/-- A job ends FAULT (R149); a translation fault posts its one event (R119). -/
def State.faultJob (s : State) (j : Job) (cause struct off va : Nat) : State :=
  let s := s.when (cause == 4) (·.post 2 2 (0x4000 + j.id.q.val) j.client va)
  s.finishJob j St.FAULT (faultDetail cause j.listIndex struct off (if cause == 4 || cause == 6 then va else 0))

def State.faultMem (s : State) (j : Job) (f : MemFault) (struct off : Nat) : State :=
  s.faultJob j f.cause struct off f.va

/-! ## Sluice flags and fences (R153 to R156, R361, R362) -/

def noFlag : FlagSt := { val := 0, poison := false, p := 0 }

def State.flag (s : State) (fence : Bool) (id : Nat) : FlagSt :=
  mgetD (if fence then s.qs.fences else s.qs.flags) id noFlag

def State.putFlag (s : State) (fence : Bool) (id : Nat) (f : FlagSt) : State :=
  if fence then { s with qs := { s.qs with fences := mput noFlag s.qs.fences id f } }
  else { s with qs := { s.qs with flags := mput noFlag s.qs.flags id f } }

/-- Set a value, which clears POISON (R362). -/
def State.setFlag (s : State) (fence : Bool) (id v : Nat) : State :=
  s.putFlag fence id { val := v % 2 ^ 32, poison := false, p := 0 }

/-- Set POISON and record P; the value stays (R361). -/
def State.poison (s : State) (fence : Bool) (id p : Nat) : State :=
  let s := s.putFlag fence id { s.flag fence id with poison := true, p := p % 2 ^ 32 }
  (s.set Od.POISON_LAST ((if fence then 2 ^ 48 else 0) + id * 2 ^ 32 + p % 2 ^ 32)).inc Od.POISON_COUNT

/-- How a wait stands (R154, R361). -/
inductive WaitIs where
  | satisfied | poisoned | waiting
  deriving DecidableEq, Repr

def State.waitOn (s : State) (fence : Bool) (id w : Nat) : WaitIs :=
  let f := s.flag fence id
  if reached f.val w then .satisfied
  else if f.poison && reached f.p w then .poisoned
  else .waiting

/-- The signal of a completing job (R155). A range changed after the check of R153 does not affect the job. -/
def State.signal (s : State) (j : Job) : State :=
  let slot := j.slot
  let status := j.status
  let s := s.when (status == St.ABORTED || status == St.FAULT) (fun s =>
    j.poisons.foldl (fun s e => if s.get (Od.VS_FLAG e.1) == 0xFFFF then s else s.poison false (s.get (Od.VS_FLAG e.1)) e.2) s)
  if slotSigEn slot && (j.checked || s.mayName j.client (slotSigFence slot) (slotSigId slot)) then
    if status == St.ABORTED || status == St.DEPENDENCY_ABORTED || status == St.FAULT
    then s.poison (slotSigFence slot) (slotSigId slot) (slotSigValue slot)
    else s.setFlag (slotSigFence slot) (slotSigId slot) (slotSigValue slot)
  else s

/-! ## Handles and slots (R141, R145, R146) -/

def State.ringSlots (s : State) (q : Nat) : Nat := s.get (Od.Q_RING_SLOTS q)

def slotKey (q slot : Nat) : Nat := q * 2048 + slot

def jobHandle (client q gen slot : Nat) : Nat := client % 64 * 2 ^ 26 + q * 2 ^ 19 + gen % 256 * 2 ^ 11 + slot

/-- Virtual address of the slot of a submission (R141). -/
def State.slotVa (s : State) (j : Job) : Nat :=
  s.get (Od.Q_RING_BASE j.id.q.val) + 64 * (j.id.n.toNat % s.ringSlots j.id.q.val)

/-- Read the slot of a job that has not been read (R142). -/
def State.readSlot (s : State) (j : Job) : State × Job × Option MemFault :=
  if j.slot.length == 64 then (s, j, none) else
  match s.rd j.client (s.slotVa j) 64 with
  | (s, b, none) => let j := { j with slot := b }; (s.putJob j, j, none)
  | (s, _, some f) => (s, j, some f)

/-! ## Completion records (R148 to R152, R190, R191) -/

def State.crRoom (s : State) (n : Nat) : Bool :=
  subMod 32 (s.get (Od.CL_CR_TAIL n)) (s.get (Od.CL_CR_HEAD n)) < s.get (Od.CL_CR_SLOTS n)

def State.heldOf (s : State) (n : Nat) : List (List Byte) := mgetD s.qs.held n []

def State.stalledClient (s : State) (n : Nat) : Bool := s.get (Od.CL_CR_HELD n) == 64

/-- Measured slow-down of a window job, Q8.8 (R190). -/
def Job.slowdown (j : Job) : Nat :=
  match j.window with
  | some w => if w.wcet == 0 then 0xFFFF else min 0xFFFF (j.cycles * 256 / (1000 * w.wcet))
  | none => 0

/-- The 32 bytes of a record, its PHASE 0, and a 33rd byte that keeps NOTIFY. -/
def State.recordOf (s : State) (j : Job) : List Byte :=
  let epoch := match j.epoch with
    | some e => e
    | none => s.get (Od.RECOV_EPOCH (engineOf j.id.q.val))
  -- R207: a job that never ran, and a deferred one, carries no flags
  let fl := if j.status == St.DEFERRED || j.status == St.DEPENDENCY_ABORTED then 0 else j.flags % 64
  toLe 4 j.handle ++ toLe 1 j.status ++ toLe 1 fl ++ [0, 0] ++ toLe 4 s.ts ++ toLe 2 j.slowdown ++
    toLe 2 epoch ++ padTo 16 j.detail ++ [if slotNotify j.slot then 1 else 0]

/-- The numeric objects count the flags of a record that is written (R210): the queue, client and handle name the
source of the gathered event. -/
def State.numericRecord (s : State) (n : Nat) (r : List Byte) : State :=
  let f := fld r 5 1 % 64
  let s := s.set Od.FLAG_SUMMARY (orN (s.get Od.FLAG_SUMMARY) f)
  let s := (List.range 6).foldl (fun s i => s.when (bitOf f i) (·.inc (Od.JOBS_NX + i))) s
  s.when (f &&& s.get Od.FLAG_EVENT_MASK != 0)
    (·.gatherN 5 2 (0x4000 + bitsOf (fld r 0 4) 19 7) n (fld r 0 4) 1)

/-- Write a record to the ring of client n and raise the vector (R150, R151). -/
def State.writeRecord (s : State) (n : Nat) (r : List Byte) : State :=
  let q := bitsOf (fld r 0 4) 19 7
  let tail := s.get (Od.CL_CR_TAIL n)
  let slots := s.get (Od.CL_CR_SLOTS n)
  let phase : Byte := if tail / slots % 2 == 0 then 0x80 else 0
  let bytes := r.take 7 ++ [phase] ++ slice r 8 24
  let s := (s.wr n (s.get (Od.CL_CR_BASE n) + 32 * (tail % slots)) bytes).1
  let s := s.set (Od.CL_CR_TAIL n) (tail + 1)
  let s := (s.set (Od.Q_DONE q) (s.get (Od.Q_DONE q) + 1)).numericRecord n r
  s.when (fld r 32 1 == 1) (·.msix n (s.get (Od.Q_VECTOR q)))

/-- Count a record once, when it is written or held (R191). -/
def State.countRecord (s : State) (j : Job) : State :=
  let n := j.client
  let k := if j.window.isSome then Od.CL_JOBS_LC n else Od.CL_JOBS_BE n
  let s := s.set k (min (2 ^ 48 - 1) (s.get k + 1))
  s.set (Od.CL_SLOWDOWN_MAX n) (max (s.get (Od.CL_SLOWDOWN_MAX n)) j.slowdown)

/-- JOB_STATE bookkeeping at completion (R147). -/
def State.noteDone (s : State) (j : Job) : State :=
  let k := slotKey j.id.q.val (j.handle % 2048)
  match mget s.qs.uses k with
  | some u => if u.n == j.id.n.toNat
      then { s with qs := { s.qs with uses := mset s.qs.uses k { u with done := some j.status } } } else s
  | none => s

/-- Complete the finished job `j` in the steps of R150; with `drop`, a record without room is discarded and counted
(R367 step 4). A record that can be neither written nor held leaves everything as it is (R152). -/
def State.complete (s : State) (j : Job) (drop : Bool) : State :=
  let n := j.client
  let r := s.recordOf j
  let direct := (s.heldOf n).isEmpty && s.crRoom n
  if direct then
    let s := ((s.countRecord j).noteDone j).dropJob j.id
    -- R150 step 2 before step 3: the record, then the signal; the vector follows the signal
    let s := s.writeRecord n (r.take 32 ++ [0])
    let s := s.signal j
    s.when (slotNotify j.slot) (·.msix n (s.get (Od.Q_VECTOR j.id.q.val)))
  else if drop then
    let s := (s.noteDone j).dropJob j.id
    let s := s.inc Od.RECOV_DROPPED
    s.signal j
  else if (s.heldOf n).length < 64 then
    let s := ((s.countRecord j).noteDone j).dropJob j.id
    let held := s.heldOf n ++ [r]
    let s := { s with qs := { s.qs with held := mput [] s.qs.held n held } }
    let s := s.set (Od.CL_CR_HELD n) held.length
    -- R152: a stall begins when the store is full
    let s := s.when (held.length == 64) (fun s =>
      ({ s with qs := { s.qs with stalled := n :: s.qs.stalled.filter (· != n) } }.inc (Od.CL_CR_STALLS n)).post
        1 4 (0x7000 + n) n 0)
    s.signal j
  else s

/-- Packets of a job's Leat transfer are still to be delivered: the record of a job that was aborted waits for them (R364). -/
def State.owesLeat (s : State) (id : JobId) : Bool := s.leat.xfers.any (fun x => x.job == id && !x.waiting.isEmpty)

/-- The record of a job may be written: it has finished and owes no packet. -/
def State.recordDue (s : State) (j : Job) : Bool := j.phase == .finished && !s.owesLeat j.id

/-- Complete the finished jobs at the front of a queue, in submission order (R143). -/
def State.completeFront (s : State) (q : Nat) (drop : Bool) : Nat → State
  | 0 => s
  | fuel + 1 =>
    match (s.jobsOf q).head? with
    | some j => if s.recordDue j then (s.complete j drop).completeFront q drop fuel else s
    | none => s

def State.drainQueue (s : State) (q : Nat) (drop : Bool) : State := s.completeFront q drop (s.jobsOf q).length

/-- A held record is written once room appears (R152). -/
def State.writeHeld (s : State) (n : Nat) : State :=
  match s.heldOf n with
  | [] => s
  | r :: rest =>
    if s.crRoom n then
      let s := s.writeRecord n r
      let s := { s with qs := { s.qs with held := mput [] s.qs.held n rest,
                                          stalled := s.qs.stalled.filter (· != n) } }
      s.set (Od.CL_CR_HELD n) rest.length
    else s

/-! ## Aborts (R363, R366) -/

/-- An outstanding job ends ABORTED under an epoch; `DETAIL` bytes 16 and 17 tell whether it had started. A job not
read is read now, for its signal (R155). A finished job keeps its status. -/
def State.abortJob (s : State) (id : JobId) (epoch : Option Nat) : State :=
  match s.job id with
  | none => s
  | some j =>
    if j.phase == .finished then s else
    let (s, j, _) := s.readSlot j
    let d := toLe 2 (if j.phase == .started then 1 else 0)
    s.finishJob { j with epoch := epoch, context := .live } St.ABORTED d

def State.abortJobs (s : State) (p : Job → Bool) (epoch : Option Nat) : State :=
  ((s.qs.jobs.filter p).map (·.id)).foldl (fun s id => s.abortJob id epoch) s

/-- Bytes of a saved context. -/
def Context.bytes : Context → Nat
  | .live => 0
  | .spilled a s => a + s
  | .toDram a s => a + s

/-- Cycles of a save or a restore (R185), and of the spill-exhausted path beside its latency, which has only a bound
(R186). -/
def Context.cycles : Context → Nat
  | .live => 0
  | .spilled a s => 64 + ceilDiv a 256 + ceilDiv s 512
  | .toDram a s => 64 + ceilDiv a 256 + ceilDiv s 512 + ceilDiv (a + s) 64

/-- Millpond bytes of the SPILL partition in use by saved contexts (R185). -/
def State.spillUsed (s : State) : Nat :=
  s.qs.jobs.foldl (fun n j => match j.context with
    | .spilled a b => n + a + b
    | _ => n) 0

/-- Bytes of the SPILL partition; 0 without one (R121, R186). -/
def State.spillSize (s : State) : Nat :=
  match (List.range 16).find? (fun p => s.partBanks p != 0 && s.get (Od.PART_ACT_KIND p) == 4) with
  | some p => s.partBytes p
  | none => 0

/-- Save a context: to the spill pool, or to DRAM, which counts and is a DRAM request (R131, R185, R186). -/
def State.saveContext (s : State) (j : Job) (acc staging : Nat) : State :=
  if 0 < s.spillSize && s.spillUsed + acc + staging ≤ s.spillSize then s.putJob { j with context := .spilled acc staging }
  else (s.inc Od.SPILL_EXHAUST).touchDram.putJob { j with context := .toDram acc staging }

end Sys2Proof.Machine
end

