-- ==== Sys2Proof/Machine/Resets.lean ====
section
/-! DEFINITION. What each reset returns to its default (R27 to R29, R70, R105, R125), domain of each object (R383),
and the stored configuration. -/

namespace Sys2Proof.Machine

/-- Power domain of an object (R383). -/
def domainOf (idx sub : Nat) : Nat :=
  if idx == 0x2600 then (if sub ≤ 0x06 then 0 else 1)
  else if idx == 0x2200 || idx == 0x2201 || idx == 0x2300 then 1
  else if 0x3000 ≤ idx && idx < 0x4000 then 1
  else if 0x4000 ≤ idx && idx < 0x4080 then 1
  else if 0x7000 ≤ idx && idx < 0x7040 then 1
  else if 0x5000 ≤ idx && idx < 0x5010 then 2
  else if 0x9000 ≤ idx && idx < 0x9100 then 2
  else if 0x6000 ≤ idx && idx < 0x6100 then 9
  else if idx == 0x8010 || idx == 0x8011 then 10
  else if 0x8000 ≤ idx && idx < 0x8100 then 1
  else if idx == 0xA040 || idx == 0xC000 then 1
  else 0

/-- Return every object that `p` selects to the constant of its row. -/
def State.clearObjects (s : State) (p : Nat → Row → Bool) : State :=
  let keep := fun k => match rowOfKey k with
    | some r => !p k r
    | none => false
  { s with od := s.od.filter (fun e => keep e.1), dom := s.dom.filter (fun e => keep e.1),
           written := s.written.filter keep }

/-- Strap-derived defaults of the objects that `p` selects (R70). -/
def State.strapDefaults (s : State) (p : Nat → Row → Bool) : State :=
  let pif := s.strapP0If
  let l : List (Nat × Nat) :=
    [(Od.NODE_ID, s.strapDevId),
     (Od.PLCA_COORD, bitsOf s.straps 12 1),
     (Od.TICK_SRC, if pif == 0 then 2 else 0),
     (Od.TICK_OUT_EN, if s.strapFollower then 0 else 1),
     (Od.PIPE_IF 0, if pif == 3 then 4 else if pif == 2 then 3 else pif),
     (Od.UNDERRUN_MODE 0, if pif == 3 then 1 else 0),
     (Od.INLINE_ECC_REQ, bitsOf s.straps 11 1),
     (Od.INLINE_ECC, bitsOf s.straps 11 1),
     (Od.SCARE_EN, if s.strapPcie then 1 else 0),
     (Od.CAS_ROLE, if s.strapFollower then 1 else 0)]
  s.sets (l.filter (fun e => match rowOfKey e.1 with
    | some r => p e.1 r
    | none => false))

/-- An object that the configuration store holds (R29). -/
def storable (r : Row) : Bool :=
  (r.acc == .rw || r.acc == .rwl) && (r.rdom == .warm || r.rdom == .powerOn)

/-- A stored value replaces the default of its object (R29). DESIGN CHOICE: stored GPIO settings are in force on GPIO13 to
GPIO31 at once, though R77 says that a reset leaves every ball an input (log entry 50). -/
def State.applyStore (s : State) (p : Nat → Row → Bool) : State :=
  match s.boot.store with
  | none => s
  | some st =>
    let q := fun k => match rowOfKey k with
      | some r => storable r && p k r
      | none => false
    let s := { s with od := s.od.filter (fun e => !q e.1), dom := s.dom.filter (fun e => !q e.1) }
    let s := s.sets (st.1.filter (fun e => q e.1))
    (st.2.filter (fun e => q e.1)).foldl (fun s e => s.setDom e.1 e.2) s

/-- Return objects to their defaults: constants, straps, then stored values. -/
def State.defaults (s : State) (p : Nat → Row → Bool) : State :=
  ((s.clearObjects p).strapDefaults p).applyStore p

/-- What STORE saves (R29). -/
def State.storeImage (s : State) : Map Nat × Map (List Byte) :=
  let q := fun k => match rowOfKey k with
    | some r => storable r
    | none => false
  (s.od.filter (fun e => q e.1), s.dom.filter (fun e => q e.1))

/-- Domains as a device reset leaves them: AON ON, CTRL and MEM OPENING, the gated ones OFF (R93, R100). -/
def State.resetDomains (s : State) : State :=
  s.sets ([(Od.PD_STATE 0, 2), (Od.PD_STATE 1, 1), (Od.PD_STATE 2, 1)] ++
    (List.range 8).map (fun i => (Od.PD_STATE (3 + i), 0)))

/-- The parts of the state that no reset of the device keeps. -/
def State.clearEngines (s : State) : State :=
  { s with gather := [], tick := { Reset.tick with enAt := s.now, pin := s.tick.pin, outRise := s.tick.outRise }, bap := Reset.bap, wins := [],
           pwr := Reset.pwr, qs := Reset.queues, ingest := [], wheel := Reset.wheel, sched := Reset.sched,
           serving := [], raster := Reset.raster, vision := Reset.vision, solver := Reset.solver, pipes := [],
           leat := Reset.leat, watch := Reset.watch,
           mem := { s.mem with millpond := [], metaMill := [], badMill := [], retained := [], bankUse := [],
                               cache := [], fifos := [], staged := none, waiting := [] } }

/-- Tick source and generator period in force follow their objects after a reset (R21). -/
def State.tickDefaults (s : State) : State :=
  { s with tick := { s.tick with src := s.get Od.TICK_SRC, genPeriod := s.get Od.GEN_PERIOD_NS,
                                 predicted := s.get Od.GEN_PERIOD_NS } }

/-- Power-on reset (R105): everything but fuses and objects of reset domain None. -/
def State.powerOnReset (s : State) : State :=
  let s := s.dropOps.clearEngines
  let s := { s with
    events := [],
    mem := { Reset.mem with host := s.mem.host },
    boot := { s.boot with phase := .held, refclkOk := false, trained := false, verifying := none, retained := none,
                          everRan := false, restart := false, gpioApplied := false, plca := true, pcieUp := false } }
  (((s.clearObjects (fun _ r => r.rdom != .never)).resetDomains).set Od.RESET_CAUSE 0).driveTickOut .highZ

/-- Warm reset (R105, R106, R125): objects, sessions, handles and engines; DRAM stays in self-refresh. -/
def State.warmReset (s : State) (cause : Nat) (ph : Phase) : State :=
  let s := s.keepPads.dropOps.clearEngines
  let s := { s with
    mem := { s.mem with refresh := .asleep s.now },
    boot := { s.boot with phase := ph, verifying := none, retained := none, everRan := false,
                          restart := false, gpioApplied := false, pcieUp := false } }
  let s := s.defaults (fun _ r => r.rdom == .warm || r.rdom == .engine || r.rdom == .client)
  (s.resetDomains.set Od.RESET_CAUSE cause).tickDefaults.driveTickOut .low

end Sys2Proof.Machine
end

