-- ==== Sys2Proof/Machine/Power.lean ====
section
/-! DEFINITION. Power domains, PLLs, boot and firmware: the shared operations and the commands of
"Power Domains, Clocks and Reset" that are no object writes. -/

namespace Sys2Proof.Machine

/-- What a write that reached an object's own rule does: the state, the abort code, the handle it returns. -/
structure WRes where
  st : State
  code : Nat
  handle : Nat

def WRes.ok (s : State) : WRes := ⟨s, Ab.OK, 0⟩

/-- A refused write has no effect (R25). -/
def WRes.no (s : State) (code : Nat) : WRes := ⟨s, code, 0⟩

/-- Start a long operation, or BUSY when every slot is RUNNING (R50, R52). -/
def WRes.start (s : State) (kind : OpKind) (via : Path) (key : Nat) (f : State → State) : WRes :=
  match s.startOp kind via key with
  | some (h, t) => ⟨f t, Ab.OK, h⟩
  | none => .no s Ab.BUSY

/-- The handle-table slot that a handle names. -/
def handleSlot (h : Nat) : Nat := h % 256

/-! ## PLLs (R101 to R104, R109, R110) -/

/-- MPLL output of a data-rate point (R109). -/
def mpllMhz (point : Nat) : Nat :=
  if point == 0 then 1100 else if point == 1 then 880 else if point == 2 then 660 else 330

/-- Requested output of PLL p, 0 to 4. -/
def State.pllReq (s : State) (p : Nat) : Nat :=
  if p == 0 then s.get Od.PLL_REQ_MHZ_CPLL
  else if p == 1 then s.get Od.PLL_REQ_MHZ_NPLL
  else if p == 2 then s.get Od.PLL_REQ_MHZ_SPLL
  else if p == 3 then s.get Od.PLL_REQ_MHZ_VPLL
  else mpllMhz (s.get Od.MEM_RATE_REQ)

/-- Domains that PLL p clocks (R101, R102); PLLs 5 to 8 make the pixel clocks. -/
def pllDomains (p : Nat) : List Nat :=
  if p == 0 then [1] else if p == 1 then [4, 5, 6, 7, 9] else if p == 2 then [3] else if p == 3 then [8]
  else if p == 4 then [2] else [9]

/-- Unit codes whose cycles PLL p counts (R169); MPLL counts every engine (R110). -/
def pllUnits (p : Nat) : List Nat :=
  if p == 0 then [7] else if p == 1 then [1, 2] else if p == 2 then [0] else if p == 3 then [3, 4]
  else [0, 1, 2, 3, 4, 5, 6, 7]

def State.pllLocked (s : State) (p : Nat) : Bool := bitOf (s.get Od.PLL_LOCK) p

/-- PLL p locks at an output, or stops at 0. -/
def State.setPll (s : State) (p mhz : Nat) (lock : Bool) : State :=
  (s.set (Od.PLL_MHZ p) mhz).set Od.PLL_LOCK (putBit (s.get Od.PLL_LOCK) p lock)

/-- PLLs 1 to 3 run while a domain of theirs is ON, OPENING or CLOSING; a stopped PLL relocks at the requested
frequency, and that is not a change (R102). The pixel PLLs stop with DISP and lock again in link training (R315). -/
def State.refreshPlls (s : State) : State :=
  [1, 2, 3, 5, 6, 7, 8].foldl (fun s p =>
    if (pllDomains p).all (fun d => s.pd d == 0) then
      let s := { s with pwr := { s.pwr with pllPending := mdel s.pwr.pllPending p,
                                            pllChanging := mdel s.pwr.pllChanging p } }
      (s.setPll p 0 false).set Od.FREQ_PENDING (putBit (s.get Od.FREQ_PENDING) p false)
    else if p < 4 && (pllDomains p).any (fun d => s.pd d == 2) && s.get (Od.PLL_MHZ p) == 0 then
      s.setPll p (s.pllReq p) true
    else s) s

/-- Pixel PLL of pipe p is to run at `PCLK_KHZ` (R102, R315): from a stop it locks at once, and a change of its output passes
through the bypass source until `pixelPllLock`. DESIGN CHOICE: `PLL_MHZ` shows whole MHz, rounded down (log entry 50). -/
def State.pixelPll (s : State) (p : Nat) : State :=
  let mhz := s.get (Od.PCLK_KHZ p) / 1000
  if s.get (Od.PLL_MHZ (5 + p)) == 0 then s.setPll (5 + p) mhz true
  else if s.get (Od.PLL_MHZ (5 + p)) == mhz then s
  else s.setPll (5 + p) 400 false

/-- A change of pixel PLL p has ended (R102); it does not count in `RELOCK_COUNT` (R104). -/
def State.pixelPllLock (s : State) (p : Nat) : State :=
  s.when (s.get (Od.PLL_MHZ (5 + p)) != 0) (·.setPll (5 + p) (s.get (Od.PCLK_KHZ p) / 1000) true)

/-- Unit code of an entry clocked by PLL p, in bucket 0 to `n` − 1, in a tick of this parity (R103). -/
def State.relockBlocked (s : State) (p n tick : Nat) : Bool :=
  match s.wheel.table with
  | none => false
  | some w => w.entries.any (fun e => (pllUnits p).contains e.engine && e.start < n &&
      (e.parity == 0 || (e.parity == 1) == (tick % 2 == 0)))

/-- The change of PLL p starts: bypass at 400 MHz, lock lost (R102, R104). -/
def State.startPll (s : State) (p : Nat) : State :=
  match mget s.pwr.pllPending p with
  | none => s
  | some (mhz, _) =>
    let s := { s with pwr := { s.pwr with pllPending := mdel s.pwr.pllPending p,
                                          pllChanging := mset s.pwr.pllChanging p (mhz, s.now) } }
    -- R110: DRAM leaves self-refresh for a change of data rate
    let s := s.when (p == 4) State.wakeDram
    (s.setPll p 400 false).set Od.FREQ_PENDING (putBit (s.get Od.FREQ_PENDING) p false)

/-- Output at which PLL p is, or is about to be (R103). -/
def State.pllPresent (s : State) (p : Nat) : Nat :=
  match mget s.pwr.pllChanging p with
  | some (m, _) => m
  | none => if s.get (Od.PLL_MHZ p) == 0 then s.pllReq p else s.get (Od.PLL_MHZ p)

/-- A request for PLL p (R103, R110). -/
def State.requestPll (s : State) (p mhz : Nat) : State :=
  let clear := fun (s : State) =>
    { s with pwr := { s.pwr with pllPending := mdel s.pwr.pllPending p } }.set Od.FREQ_PENDING
      (putBit (s.get Od.FREQ_PENDING) p false)
  if s.get (Od.PLL_MHZ p) == 0 && (mget s.pwr.pllChanging p).isNone then clear s
  else if s.pllPresent p == mhz then clear s
  else
    let s := { s with pwr := { s.pwr with pllPending := mset s.pwr.pllPending p (mhz, s.now) } }
    let s := s.set Od.FREQ_PENDING (putBit (s.get Od.FREQ_PENDING) p true)
    if !s.on Od.TICK_EN && (mget s.pwr.pllChanging p).isNone then s.startPll p else s

/-- The header field of the table in force that is the admission clock of PLL p (R170, R176). -/
def State.admClock (s : State) (p : Nat) : Nat :=
  match s.wheel.table with
  | none => 0
  | some w => if p == 0 then w.cpll else if p == 1 then w.npll else if p == 2 then w.spll else if p == 3 then w.vpll else w.mpll

/-- A write to PLL_REQ_MHZ of PLL 0 to 3 (R103, R176). -/
def State.wrPllReq (s : State) (p key v : Nat) : WRes :=
  if v < s.admClock p then .no s Ab.BUSY
  else .ok ((s.set key v).requestPll p v)

/-- A write to MEM_RATE_REQ (R110, R111, R176). -/
def State.wrMemRate (s : State) (v : Nat) : WRes :=
  if s.opRunning .memTrain || s.selftesting || mpllMhz v < s.admClock 4 then .no s Ab.BUSY
  else .ok ((s.set Od.MEM_RATE_REQ v).requestPll 4 (mpllMhz v))

/-! ## Gated domains (R94 to R99) -/

/-- Domain of a unit code and quarter. -/
def unitDomain (code quarter : Nat) : Nat :=
  if code == 0 then 3 else if code == 1 then 4 + quarter % 4 else if code == 2 then 9 else if code == 3 then 8
  else if code == 4 then 8 else if code == 5 then 9 else if code == 6 then 2 else 1

def State.setPd (s : State) (d v : Nat) : State :=
  { s.set (Od.PD_STATE d) v with pwr := { s.pwr with since := mset s.pwr.since d s.now } }

/-- A gated domain that is OFF starts to open (R94). -/
def State.openDomain (s : State) (d : Nat) : State := if s.pd d == 0 then s.setPd d 1 else s

/-- A Leat port goes DOWN (R332): its packets are discarded, the change is counted and posted. -/
def State.portDown (s : State) (port : Nat) : State :=
  if s.get (Od.LP_STATE port) != 2 then s.set (Od.LP_STATE port) 0 else
  let s := (s.set (Od.LP_STATE port) 0).set (Od.LP_PEER port) 0xFF
  let s := s.inc (Od.LP_DOWN_COUNT port)
  let s := { s with leat := { s.leat with
    replay := mdel s.leat.replay port,
    refused := s.leat.refused.filter (fun r => r.port != port),
    rxSeq := mdel s.leat.rxSeq port, txSeq := mdel s.leat.txSeq port } }
  s.post 6 1 (0x8010 + port) port 0

/-- The cases in which R95 refuses a write of `v` to PD_REQ of domain `d`. -/
def State.pdBusy (s : State) (d v : Nat) : Bool :=
  s.pd d == 1 || s.pd d == 3 ||
    (v == 0 && (match s.wheel.table with
      | some w => w.entries.any (fun e => unitDomain e.engine e.quarter == d)
      | none => false)) ||
    (d == 9 && (List.range 4).any (fun p => s.on (Od.PIPE_EN p))) ||
    (d == 10 && (s.get Od.CAS_STATE == 2 || s.get Od.CAS_STATE == 3))

/-- A gated domain that is ON starts to close (R94). -/
def State.closeDomain (s : State) (d : Nat) : State :=
  if s.pd d != 2 then s else
  let s := s.setPd d 3
  let s := { s with pwr := { s.pwr with drained := s.pwr.drained.filter (· != d) } }
  s.when (d == 10) (fun s => (s.portDown 0).portDown 1)

/-- A gated domain goes where its PD_REQ says (R87 step 6, R95). -/
def State.followPdReq (s : State) (i : Nat) : State :=
  if s.on (Od.PD_REQ i) then s.openDomain (3 + i) else s.closeDomain (3 + i)

/-- A write to PD_REQ of domain 3 + i (R95): recorded until the firmware starts, which acts on it. -/
def State.wrPdReq (s : State) (i v : Nat) : WRes :=
  let k := Od.PD_REQ i
  if s.get k == v then .ok s
  else if s.pdBusy (3 + i) v then .no s Ab.BUSY
  else if !s.running then .ok (s.set k v)
  else .ok ((s.set k v).followPdReq i)

/-- Started jobs whose unit lies in a domain. -/
def State.startedIn (s : State) (d : Nat) : List Job :=
  s.qs.jobs.filter (fun j => j.phase == .started && (match j.unit with
    | some u => SchedUnit.domain u == d
    | none => false))

/-- A job still running at the drain limit of VISOL or DISP ends ABORTED, its engine's epoch increments and one event
is posted (R97, R366). -/
def State.drainAbort (s : State) (d : Nat) (j : Job) : State :=
  let e := engineOf j.id.q.val
  let s := s.set (Od.RECOV_EPOCH e) (s.get (Od.RECOV_EPOCH e) + 1)
  let s := (s.abortJob j.id none).drainQueue j.id.q.val false
  s.post 1 3 0x2400 d j.handle

/-- The 50 µs drain of a closing domain ends (R97). -/
def State.drainEnd (s : State) (d : Nat) : State :=
  if s.pd d != 3 || s.pwr.drained.contains d then s else
  let s := { s with pwr := { s.pwr with drained := d :: s.pwr.drained } }
  let jobs := s.startedIn d
  if d == 8 || d == 9 then
    let s := jobs.foldl (fun s j => s.drainAbort d j) s
    s.when (!jobs.isEmpty) (·.inc (Od.PD_DRAIN_ABORT (d - 3)))
  else
    -- a job inside a command whose pre-emption point no command has shown is saved where it stands
    let s := jobs.foldl (fun (s : State) j =>
      if j.done != 0 && j.context == .live then s.saveContext j j.live.1 j.live.2 else s) s
    -- no unit of the domain holds a job, and queues resume in their order
    let mine := fun (u : SchedUnit) => SchedUnit.domain u == d
    { s with sched := { s.sched with running := s.sched.running.filter (fun e => !mine e.1),
                                     incoming := s.sched.incoming.filter (fun e => !mine e.1),
                                     served := s.sched.served.filter (fun e => !mine e.1) } }

/-- Power-down ends: the domain is OFF (R94). -/
def State.domainOff (s : State) (d : Nat) : State :=
  if s.pd d == 3 && s.pwr.drained.contains d then
    let s := s.setPd d 0
    { s with pwr := { s.pwr with drained := s.pwr.drained.filter (· != d) } }.refreshPlls
  else s

/-- OPENING ends: every object of the domain holds its default and the domain is ON (R94, R99). -/
def State.domainOpenEnd (s : State) (d : Nat) : State :=
  if s.pd d != 1 then s else
  let s := s.defaults (fun k _ => domainOf (k / 256) (k % 256) == d)
  let s := if d == 9 then { s with pipes := [], mem := { s.mem with fifos := [] } } else s
  let s := if d == 10 then { s with leat := Reset.leat } else s
  let s := (s.setPd d 2).refreshPlls
  -- R332: a port whose LP_EN reads 1 trains by itself
  s.when (d == 10) (fun s => [0, 1].foldl (fun s x => if s.on (Od.LP_EN x) then s.set (Od.LP_STATE x) 1 else s) s)

/-! ## Firmware images (R87 to R91) -/

/-- `MAGIC`, reserved fields and lengths of an image (R88, R89). -/
def imageLayoutOk (b : List Byte) : Bool :=
  128 ≤ b.length && fld b 0 4 == 0x484B3734 && zeros b 12 4 && zeros b 112 16 && fld b 4 4 % 16 == 0 &&
    b.length == 128 + fld b 4 4 + 96 && b.length ≤ 0x800000

/-- The result of R89 for an image. -/
def State.verifyImage (s : State) (b : List Byte) : Nat :=
  if !imageLayoutOk b then Ab.RANGE
  else
    let key := slice b 16 96
    let signed := b.take (128 + fld b 4 4)
    let sig := b.drop (128 + fld b 4 4)
    if sha384 key == padTo 48 (s.getDom Od.FW_KEY_HASH) && ecdsaVerify key signed sig
        && s.get Od.FW_MIN_MAJOR ≤ fld b 11 1 then Ab.OK
    else Ab.AUTH

/-- The firmware starts (R87 step 6, R91, R353, R354). -/
def State.startFirmware (s : State) (image : List Byte) : State :=
  let s := s.keepPads
  let s := { s with
    boot := { s.boot with phase := .running, verifying := none, retained := some image, everRan := true },
    watch := { s.watch with scareAt := s.now, scareMs := s.get Od.SCARE_PERIOD_MS } }
  let s := s.sets [(Od.BOOT_STATE, 3), (Od.BOOT_RESULT, Ab.OK), (Od.FW_VERSION, fld image 8 4)]
  let s := s.irq 4
  -- R95: a recorded 0 that a window, a pipe or a cascade has come to stand against is not acted on
  (List.range 8).foldl (fun s i => s.when (s.on (Od.PD_REQ i) || !s.pdBusy (3 + i) 0) (·.followPdReq i)) s

/-- One class 7, code 4 event (R90). -/
def State.imageRefused (s : State) (code : Nat) : State :=
  (s.set Od.BOOT_RESULT code).post 7 4 0x2600 0 code

/-- Verification ends (R89 to R91, R353). -/
def State.verifyDone (s : State) : State :=
  match s.boot.verifying with
  | none => s
  | some v =>
    let code := s.verifyImage v.image
    let s := { s with boot := { s.boot with verifying := none } }
    let s := if code == Ab.OK then s.startFirmware v.image else
      let s := s.imageRefused code
      if v.source == .fwLoad then s
      else { s.set Od.BOOT_STATE 1 with boot := { s.boot with phase := .rom } }
    match v.slot with
    | some i => s.finishOp i code
    | none => s

/-- Verification of an image starts. -/
def State.beginVerify (s : State) (b : List Byte) (src : ImageSource) (slot : Option Nat) : State :=
  { s with boot := { s.boot with verifying := some { image := b, source := src, slot := slot } } }

/-- Step 4 of R87: the boot ROM acts on the boot source. `nor` is what the QSPI NOR holds, none when none answers. -/
def State.bootSource (s : State) (nor : Option (List Byte)) : State :=
  if s.bootSrc == 0 then
    match nor with
    | none => (s.imageRefused Ab.NO_STORE).set Od.BOOT_STATE 1
    | some m =>
      let head := padTo 128 m
      let n := 128 + fld head 4 4 + 96
      if fld head 0 4 != 0x484B3734 || fld head 4 4 % 16 != 0 || n > 0x800000 then
        ((s.setDom Od.FW_IMAGE head).imageRefused Ab.RANGE).set Od.BOOT_STATE 1
      else
        let image := padTo n m
        ((s.setDom Od.FW_IMAGE image).set Od.BOOT_STATE 2).beginVerify image .nor none
  else s.set Od.BOOT_STATE 1

/-- Steps 2 to 4 of R87; after a Governor expiry, step 4 alone (R353). DESIGN CHOICE: a node that fell back to CSMA/CD uses
PLCA again from here, since the spec does not say when it returns (log entry 50). -/
def State.bootRomStart (s : State) (nor : Option (List Byte)) : State :=
  if s.boot.phase == .rom && s.boot.restart then
    ({ s with boot := { s.boot with restart := false } }.set Od.BOOT_STATE 0).bootSource nor
  else if s.boot.phase != .starting then s else
  let fresh := !s.boot.trained
  let s := { s with
    boot := { s.boot with phase := .rom, trained := true, pcieUp := s.boot.perst && s.strapPcie,
                          plca := true },
    watch := { s.watch with gov := true, govAt := s.now, govTicks := 0 } }
  -- R113: the active setting is taken at the training of a power-on reset
  let s := s.when fresh (fun s => s.set Od.INLINE_ECC (s.get Od.INLINE_ECC_REQ))
  let s := s.sets [(Od.PD_STATE 1, 2), (Od.PD_STATE 2, 2), (Od.BOOT_STATE, 0),
                   (Od.MEM_RATE, s.get Od.MEM_RATE_REQ)]
  let s := (s.setPll 0 (s.pllReq 0) true).setPll 4 (s.pllReq 4) true
  -- R81: the coordinator's first BEACON; a warm reset keeps the BEACONs running
  let s := s.when (fresh && s.on Od.PLCA_COORD && s.get Od.NODE_ID == 0 && s.on Od.PLCA_EN)
    (fun s => s.emit (.beacon (s.get Od.PLCA_NODES)))
  -- R62, R71: conflicts of straps post one event at each reset
  let s := s.when (s.on Od.PLCA_COORD && s.get Od.NODE_ID != 0) (·.post 7 2 0x1100 0 (s.get Od.NODE_ID))
  let s := s.when (bitsOf s.straps 6 2 == 1 && !s.strapPcie) (·.post 7 3 0x2600 0 s.straps)
  s.bootSource nor

/-- REFCLK in kHz of a strap setting (R69). -/
def refclkKHz (sel : Nat) : Nat := if sel == 0 then 19200 else if sel == 1 then 26000 else 38400

/-- The REFCLK check of R72. -/
def refclkCheck (cfg measured : Nat) : Bool :=
  let sel := cfg % 4
  let f := refclkKHz sel
  sel != 3 && 5 * (measured - f) ≤ f && 5 * (f - measured) ≤ f

/-- The board has violated R85 and the device's behaviour is not defined (R72): REFCLK off by 100 ppm matters only where the
check of R72, which stops the device, lets it pass. -/
def offLimits (b : Board) : Bool := !b.timely || (refclkCheck b.cfg.toNat b.measuredKHz && !b.within100ppm)

/-- T_B (R22, R28, R67, R72): straps are latched, the timestamp reads 0, defaults apply and the boot begins,
or waits while WRST_N is low (R106). TICK_OUT leaves high-impedance where the REFCLK check passes (R72, R80).
DESIGN CHOICE: the configuration in the QSPI NOR is applied whatever `BOOT_SRC` says, and where it sets `TICK_EN` the
2.5 ms of R14 count from here (log entry 50). -/
def State.tB0 (s : State) (b : Board) : State :=
  let cfg := b.cfg.toNat
  let s := { s with tB := s.now, boot := { s.boot with latched := true } }
  let s := (s.set Od.STRAP_RAW cfg).strapDefaults (fun _ _ => true)
  let s := (s.applyStore (fun _ _ => true)).tickDefaults
  let s := s.resetDomains
  let ok := refclkCheck cfg b.measuredKHz
  let s := { s with
    boot := { s.boot with phase := if !ok then .clockFail else if s.boot.wrst then .starting else .warmHeld, refclkOk := ok },
    tick := { s.tick with enAt := s.now } }
  s.when ok (·.driveTickOut .low)

/-- The PCI Express link trains once PERST_N is released, the strap allows it and CTRL is ON (R80). -/
def State.perstRelease (s : State) : State :=
  { s with boot := { s.boot with perst := true, pcieUp := s.boot.pcieUp || (s.strapPcie && s.alive) } }

/-! ## Commands -/

abbrev Res := Host.Outcome State Fault Refusal

/-- `PORST_N_FALL` (R105). -/
def execPorstNFall (dt : Nat) (s : State) : Res :=
  let s := s.advance dt
  .next (if s.boot.phase == .unpowered then s
    else { s.powerOnReset with boot := { s.powerOnReset.boot with porst := false } })

/-- `PORST_N_RISE` (R67, R72, R85). While the balls are taken by boundary scan nothing more happens (R372). -/
def execPorstNRise (dt : Nat) (b : Board) (s : State) : Res :=
  let s := s.advance dt
  if s.boot.phase == .unpowered || s.boot.porst then .next s
  else if s.tap.taken then .next { s with boot := { s.boot with porst := true } }
  else if offLimits b then .fault .boardViolatesR85
  else .next ({ s with boot := { s.boot with porst := true } }.tB0 b)

/-- `SUPPLY_LOSS` (R86): DRAM content is lost; what the device held is gone but fuses and the NOR. -/
def execSupplyLoss (dt : Nat) (s : State) : Res :=
  let s := s.advance dt
  let s := s.powerOnReset.set Od.BSCAN_IR 2
  .next { s with tap := Reset.tap,
                 boot := { s.boot with phase := .unpowered, porst := false, latched := false } }

/-- `SUPPLIES_GOOD` (R85, R93): AON comes ON with PORST_N low. -/
def execSuppliesGood (dt : Nat) (s : State) : Res :=
  let s := s.advance dt
  .next (if s.boot.phase == .unpowered
    then { s.resetDomains with boot := { s.boot with phase := .held, porst := false } } else s)

/-- `WRST_N_FALL` (R105, R106, R107): no effect while PORST_N is low. -/
def execWrstNFall (dt : Nat) (s : State) : Res :=
  let s := s.advance dt
  let s := { s with boot := { s.boot with wrst := false } }
  .next (match s.boot.phase with
    | .starting | .warmHeld | .rom | .running => s.warmReset 1 .warmHeld
    | _ => s)

/-- `WRST_N_RISE` (R106): the device boots with the retained memory training. -/
def execWrstNRise (dt : Nat) (s : State) : Res :=
  let s := s.advance dt
  let s := { s with boot := { s.boot with wrst := true } }
  .next (if s.boot.phase == .warmHeld then { s with boot := { s.boot with phase := .starting } } else s)

/-- `BOOT_ROM_START` (R87). -/
def execBootRomStart (dt : Nat) (nor : Option (List Byte)) (s : State) : Res :=
  .next ((s.advance dt).bootRomStart nor)

/-- `IMAGE_VERIFY_DONE` (R89). -/
def execImageVerifyDone (dt : Nat) (s : State) : Res := .next (s.advance dt).verifyDone

/-- `GPIO_STRAP_APPLY` (R68, R77). -/
def execGpioStrapApply (dt : Nat) (s : State) : Res :=
  let s := s.advance dt
  .next (if s.running && s.now - s.tB ≥ 20000000
    then { s.keepPads with boot := { s.keepPads.boot with gpioApplied := true } } else s)

/-- `DRAIN_END` (R97). -/
def execDrainEnd (dt : Nat) (d : Fin 8) (s : State) : Res := .next ((s.advance dt).drainEnd (3 + d.val))

/-- `DOMAIN_OFF` (R94). -/
def execDomainOff (dt : Nat) (d : Fin 8) (s : State) : Res := .next ((s.advance dt).domainOff (3 + d.val))

/-- `DOMAIN_OPEN_END` (R94, R99). -/
def execDomainOpenEnd (dt : Nat) (d : Fin 8) (s : State) : Res := .next ((s.advance dt).domainOpenEnd (3 + d.val))

/-- The relock buckets of the tick now running are free for PLL p, and the write came before that tick (R103). -/
def State.pllMayStart (s : State) (p : Nat) : Bool :=
  match mget s.pwr.pllPending p with
  | none => false
  | some (_, at_) => (mget s.pwr.pllChanging p).isNone &&
      (!s.on Od.TICK_EN || (s.tick.since > 0 && at_ < s.tick.lastAt && s.get Od.CUR_BUCKET == 0 &&
        !s.relockBlocked p s.relockBuckets (s.get Od.TICK_COUNT)))

/-- `PLL_CHANGE_START` (R102, R103). -/
def execPllChangeStart (dt : Nat) (p : Fin 5) (s : State) : Res :=
  let s := s.advance dt
  .next (if s.pllMayStart p.val then s.startPll p.val else s)

/-- The change of PLL p ends (R102, R104, R110). -/
def State.endPll (s : State) (p : Nat) : State :=
  match mget s.pwr.pllChanging p with
  | none => s
  | some (mhz, _) =>
    let s := { s with pwr := { s.pwr with pllChanging := mdel s.pwr.pllChanging p } }
    let s := (s.setPll p mhz true).inc Od.RELOCK_COUNT
    s.when (p == 4) (fun s => match (List.range 4).find? (fun r => mpllMhz r == mhz) with
      | some r => s.set Od.MEM_RATE r
      | none => s)

/-- `PLL_CHANGE_END` (R102). -/
def execPllChangeEnd (dt : Nat) (p : Fin 5) (s : State) : Res := .next ((s.advance dt).endPll p.val)

/-- `PERST_N_RELEASE` (R80). -/
def execPerstNRelease (dt : Nat) (s : State) : Res :=
  let s := s.advance dt
  .next s.perstRelease

/-- `PLCA_BEACON_LOSS` (R81): the node falls back to CSMA/CD. -/
def execPlcaBeaconLoss (dt : Nat) (s : State) : Res :=
  let s := s.advance dt
  .next (if s.netUp && !(s.on Od.PLCA_COORD && s.get Od.NODE_ID == 0) && s.on Od.PLCA_EN && s.get Od.NODE_ID ≤ 7
    then { s with boot := { s.boot with plca := false } } else s)

end Sys2Proof.Machine
end

