-- ==== Sys2Proof/Machine/Pipes.lean ====
section
/-! DEFINITION. Display pipes: timing (R313), who fetches (R323), and the DRAM fetch FIFO with its latency tolerance
(R130). -/

namespace Sys2Proof.Machine

def State.pipe (s : State) (p : Nat) : Pipe := mgetD s.pipes p Reset.pipe

def State.putPipe (s : State) (p : Nat) (x : Pipe) : State := { s with pipes := mput Reset.pipe s.pipes p x }

/-- A pipe is enabled. -/
def State.pipeOn (s : State) (p : Nat) : Bool := s.on (Od.PIPE_EN p)

/-! ## Timing (R313) -/

def State.hTotal (s : State) (p : Nat) : Nat :=
  s.get (Od.H_ACTIVE p) + s.get (Od.H_FP p) + s.get (Od.H_SYNC p) + s.get (Od.H_BP p)

def State.vBlank (s : State) (p : Nat) : Nat := s.get (Od.V_FP p) + s.get (Od.V_SYNC p) + s.get (Od.V_BP p)

def State.vTotal (s : State) (p : Nat) : Nat := s.vBlank p + s.get (Od.V_ACTIVE p)

/-- The time of `n` lines of a pipe, in ns, rounded up to the first whole ns at which they have passed. -/
def State.linesNs (s : State) (p n : Nat) : Nat :=
  ceilDiv (n * s.hTotal p * 1000000) (max 1 (s.get (Od.PCLK_KHZ p)))

/-- The frame period of a pipe, in ns, as a fraction. -/
def State.frameNs (s : State) (p : Nat) : Nat × Nat :=
  (s.hTotal p * s.vTotal p * 1000000, max 1 (s.get (Od.PCLK_KHZ p)))

/-- When the active lines of the frame in progress begin. -/
def State.activeAt (s : State) (p : Nat) : Nat := (s.pipe p).tF + s.linesNs p (s.vBlank p)

/-- Frames of a pipe run: it is enabled, or its last frame is still scanned. -/
def State.framing (s : State) (p : Nat) : Bool := s.pipeOn p || (s.pipe p).stopping

/-- The pipe is disabled, or in vertical blanking: a LINK_XFER may be sent (R323). -/
def State.mayTransfer (s : State) (p : Nat) : Bool := !s.framing p || s.now < s.activeAt p

/-- The client whose translation fetches a pipe's addresses other than layer surfaces (R323). -/
def State.pipeClient (s : State) (p : Nat) : Nat :=
  let o := s.get (Od.PIPE_OWNER p)
  if o == 0xFF then 0 else o % 64

/-- A job of this client may name a pipe (R320). -/
def State.ownsPipe (s : State) (client p : Nat) : Bool :=
  s.get (Od.PIPE_OWNER p) == 0xFF || s.get (Od.PIPE_OWNER p) == client

/-- Bits per pixel of a display format, uncompressed (R324). -/
def dispBits (fmt : Nat) : Nat :=
  if fmt == 8 then 64 else if fmt == 3 || fmt == 4 || fmt == 5 then 32
  else if fmt == 0x21 then 1 else if fmt == 0x22 then 2 else if fmt == 0x23 then 4 else if fmt == 0x24 then 8 else 0

/-! ## DRAM fetch (R130) -/

/-- A layer shown from DRAM. -/
def State.dramFed (s : State) (l : Shown) : Bool :=
  l.cfg.enable && (match (s.resolve l.cfg.client l.cfg.va false).2 with
    | some (.dram _, _) => true
    | _ => false)

/-- Layers shown in the frame in progress (R308, R319, R349). -/
def Pipe.shown (x : Pipe) : List Shown :=
  if x.blank then []
  else if x.frozen then (match x.good with
    | some g => g.1
    | none => [])
  else x.layers.filter (fun l => !x.dropped.contains l.layer)

/-- Bits per pixel over the layers of a pipe fetched from DRAM. -/
def State.dramBits (s : State) (p : Nat) : Nat :=
  ((s.pipe p).shown.filter s.dramFed).foldl (fun n l => n + dispBits l.cfg.fmt) 0

/-- The drain rate of a pipe's FIFO in active lines, bytes per ns, as a fraction. -/
def State.drainRate (s : State) (p : Nat) : Nat × Nat :=
  (s.dramBits p * s.get (Od.H_ACTIVE p) * s.get (Od.PCLK_KHZ p), max 1 (8 * s.hTotal p * 1000000))

def fifoCap : Nat := 262144

/-- Bytes drained between two moments of the frame in progress. -/
def State.drained (s : State) (p a b : Nat) : Nat :=
  let t0 := s.activeAt p
  let r := s.drainRate p
  ((max b t0) - (max a t0)) * r.1 / r.2

/-- The FIFO of a pipe, empty until its first refill. -/
def State.fifo (s : State) (p : Nat) : Fifo := mgetD s.mem.fifos p { fill := 0, at_ := s.now, refilling := false }

/-- When a refill that runs reaches capacity: it fills at 16 bytes per ns and drains in active lines. -/
def State.refillEnd (s : State) (p : Nat) (f : Fifo) : Option Nat :=
  let d := fifoCap - f.fill
  let t0 := s.activeAt p
  let b := t0 - f.at_
  if 16 * b ≥ d then some (f.at_ + ceilDiv d 16)
  else
    let r := s.drainRate p
    if 16 * r.2 ≤ r.1 then none
    else some (max f.at_ t0 + ceilDiv ((d - 16 * b) * r.2) (16 * r.2 - r.1))

/-- The FIFO of a pipe now, and the end of a refill that has ended. -/
def State.fifoNow (s : State) (p : Nat) : Fifo × Option Nat :=
  let f := s.fifo p
  if f.refilling then
    match s.refillEnd p f with
    | some te =>
      if te ≤ s.now then ({ fill := fifoCap - s.drained p te s.now, at_ := s.now, refilling := false }, some te)
      else ({ f with fill := f.fill + 16 * (s.now - f.at_) - s.drained p f.at_ s.now, at_ := s.now }, none)
    | none => ({ f with fill := min fifoCap (f.fill + 16 * (s.now - f.at_) - s.drained p f.at_ s.now), at_ := s.now }, none)
  else ({ f with fill := f.fill - s.drained p f.at_ s.now, at_ := s.now }, none)

/-- Bring the FIFO of a pipe up to now; a refill that has ended was its last DRAM request. -/
def State.settleFifo (s : State) (p : Nat) : State :=
  let (f, te) := s.fifoNow p
  { s with mem := { s.mem with
    fifos := mset s.mem.fifos p f,
    lastReq := match te with
      | some t => max s.mem.lastReq t
      | none => if f.refilling then s.now else s.mem.lastReq } }

/-- `LTR_NS` of a pipe (R130). -/
def State.ltr (s : State) (p : Nat) : Nat :=
  if !s.pipeOn p || s.dramBits p == 0 then 0xFFFFFFFF
  else
    let r := s.drainRate p
    min 0xFFFFFFFF ((s.activeAt p - s.now) + (s.fifoNow p).1.fill * r.2 / max 1 r.1)

/-- `SR_EXIT_NS` + `SR_GUARD_NS`. -/
def State.srThreshold (s : State) : Nat := s.get Od.SR_EXIT_NS + s.get Od.SR_GUARD_NS

end Sys2Proof.Machine
end

