-- ==== Sys2Proof/Machine/Sched.lean ====
section
/-! DEFINITION. Scheduling: which job is next in line and may start (R143, R153, R154, R361), windows (R178 to R181),
best-effort order and placement (R182, R183), pre-emption and context switches (R184 to R186), and how the commands
of a started job are taken (R138 to R140, R144). -/

namespace Sys2Proof.Machine

/-! ## Opcodes -/

/-- The engine of queue q implements an opcode (R139, R158, R166, R212, R238, R243, R272, R286, R320, R343). -/
def opcodeKnown (q op : Nat) : Bool :=
  let e := engineOf q
  op ≤ 1 || (
    if e == 0 then 0x10 ≤ op && op ≤ 0x13
    else if e == 1 then op == 0x10 || op == 0x18 || (0x20 ≤ op && op ≤ 0x22)
    else if e == 5 then 0x10 ≤ op && op ≤ 0x16
    else if e == 6 then false
    else 0x10 ≤ op && op ≤ 0x12)

/-- The serving session that an enabled session's queue belongs to (R231). -/
def State.servingOf (s : State) (q : Nat) : Option Nat :=
  (List.range 8).find? (fun i => s.on (Od.SV_ENABLE i) && s.get (Od.SV_QUEUE i) == q)

/-! ## Next in line -/

/-- Where the job next in line of a queue stands. -/
inductive Line where
  /-- it has ended without starting -/
  | ended (s : State)
  | waits (s : State)
  | ready (s : State) (j : Job)
  deriving DecidableEq

/-- First offending field of a serving command (R235). -/
def State.servingBad (s : State) (q : Nat) (c : List Byte) : Option Nat :=
  let op := slotOpcode c
  let k := fld c 24 1
  if k > 7 || s.servingOf q != some k then some 24
  else if op == 0x20 && !zeros c 26 2 then some 26
  else if op == 0x20 && (fld c 28 4 == 0 || fld c 28 4 > 4096) then some 28
  else if op == 0x21 && !zeros c 26 6 then some 26
  else if op != 0x22 && !zeros c 48 16 then some 48
  else if op == 0x22 && !zeros c 26 38 then some 26
  else none

/-- Every selected stream's flag is absent or in the client's range (R284). -/
def State.streamFlagsOk (s : State) (client : Nat) (b : List Byte) : Bool :=
  (List.range 16).all (fun v => !bitOf (fld b 24 2) v || s.get (Od.VS_FLAG v) == 0xFFFF ||
    s.mayName client false (s.get (Od.VS_FLAG v)))

/-- First offending part of a slot: cause and field offset (R138, R139, R153). -/
def State.slotBad (s : State) (j : Job) : Option (Nat × Nat) :=
  let b := j.slot
  let op := slotOpcode b
  let sv := engineOf j.id.q.val == 1 && 0x20 ≤ op && op ≤ 0x22
  if !opcodeKnown j.id.q.val op || ((s.servingOf j.id.q.val).isSome && !sv) then some (1, 0)
  else if bitsOf (fld b 1 1) 0 2 != 0 then some (2, 1)
  else if sv && slotTemplate b != 0xFFFF then some (2, 6)
  else if !zeros b 16 8 then some (2, 16)
  else if slotWaitEn b && !s.mayName j.client (slotWaitFence b) (slotWaitId b) then some (3, 2)
  else if slotSigEn b && !s.mayName j.client (slotSigFence b) (slotSigId b) then some (3, 4)
  else if selectsStreams j.id.q.val b && !s.streamFlagsOk j.client b then some (3, 24)
  else if sv then (s.servingBad j.id.q.val b).map (fun o => (2, o))
  else none

/-- `DETAIL` of a DEPENDENCY_ABORTED record (R361). -/
def dependencyDetail (b : List Byte) (p : Nat) : List Byte :=
  toLe 2 (slotWaitId b) ++ toLe 1 (if slotWaitFence b then 1 else 0) ++ [0] ++ toLe 4 p

/-! ## Ingest streams and the start of INGEST_PUT (R164, R166) -/

def Reset.ingest : Ingest := { f := 0, frame := none, dropping := false }

def State.stream (s : State) (i : Nat) : Ingest := mgetD s.ingest i Reset.ingest

def State.putStream (s : State) (i : Nat) (x : Ingest) : State := { s with ingest := mput Reset.ingest s.ingest i x }

/-- The buffer of a stream's next frame is free (R164). -/
def State.bufFree (s : State) (i : Nat) : Bool :=
  let f := (s.stream i).f
  let rel := s.get (Od.IS_REL_FLAG i)
  f < s.get (Od.IS_NBUF i) || rel == 0xFFFF ||
    reached (s.flag false rel).val ((f + 2 ^ 32 - s.get (Od.IS_NBUF i) + 1) % 2 ^ 32)

/-- First offending field of an INGEST_PUT (R166). -/
def State.ingestBad (s : State) (client : Nat) (c : List Byte) : Option Nat :=
  let i := fld c 24 1
  if i > 15 || s.get (Od.IS_OWNER i) != client || !s.on (Od.IS_EN i) || s.get (Od.IS_KIND i) < 2 then some 24
  else if !zeros c 25 7 then some 25
  else if !zeros c 44 4 then some 44
  else if !zeros c 56 8 then some 56
  else none

/-- Another INGEST_PUT of a stream has started and not finished: frames of one stream are put one after the other. -/
def State.putRunning (s : State) (i : Nat) (id : JobId) : Bool :=
  s.qs.jobs.any (fun k => k.id != id && k.phase == .started && engineOf k.id.q.val == 5 &&
    slotOpcode k.slot == 0x16 && fld k.slot 24 1 == i)

/-! ## Solver slots (R294) -/

/-- The structure slot that a solver command names. -/
def solverSlot (c : List Byte) : Option Nat :=
  if slotOpcode c == 0x10 || slotOpcode c == 0x11 then some (fld c 24 1) else none

/-- Structure slots that a solver job names, in its slot or its list. -/
def State.namesSlots (s : State) (j : Job) : List Nat :=
  if engineOf j.id.q.val != 3 then []
  else if slotOpcode j.slot == 1 then
    (List.range (min (fld j.slot 32 4) 65535)).filterMap (fun i =>
      solverSlot (s.rd j.client (fld j.slot 24 8 + 64 * i) 64).2.1)
  else (solverSlot j.slot).toList

/-- A job holds a slot from its start to its completion. -/
def State.slotHeld (s : State) (k : Nat) (other : Option JobId) : Bool :=
  s.qs.jobs.any (fun j => some j.id != other && j.phase != .queued && engineOf j.id.q.val == 3 && (s.namesSlots j).contains k)

/-- Read and check the slot of the job next in line, then decide its wait and its serial condition. -/
def State.checkLine (s : State) (j : Job) : Line :=
  match s.readSlot j with
  | (s, j, some f) => .ended (s.faultMem j f 0 0)
  | (s, j, none) =>
    match (if j.checked then none else s.slotBad j) with
    | some (cause, off) => .ended (s.faultJob j cause 0 off 0)
    | none =>
      let j := { j with checked := true }
      let s := s.putJob j
      let b := j.slot
      let w := if slotWaitEn b then s.waitOn (slotWaitFence b) (slotWaitId b) (slotWaitValue b) else .satisfied
      match w with
      | .poisoned =>
        .ended (s.finishJob j St.DEPENDENCY_ABORTED (dependencyDetail b (s.flag (slotWaitFence b) (slotWaitId b)).p))
      | .waiting => .waits s
      | .satisfied =>
        if slotSerial b && ((s.jobsOf j.id.q.val).head?.map (·.id)) != some j.id then .waits s
        else if (s.namesSlots j).any (fun k => s.slotHeld k (some j.id)) then .waits s
        else if engineOf j.id.q.val == 5 && slotOpcode b == 0x16 then
          match s.ingestBad j.client b with
          | some off => .ended (s.faultJob j 2 0 off 0)
          | none => if s.bufFree (fld b 24 1) && !s.putRunning (fld b 24 1) j.id then .ready s j else .waits s
        else .ready s j

/-- No job may start: a repartition or a retraining runs (R111, R124), or the client's overflow store is full (R152). -/
def State.startBlocked (s : State) (client : Nat) : Bool :=
  !s.alive || s.opRunning .repartition || s.opRunning .memTrain || s.stalledClient client

/-! ## Entries and levels -/

/-- Entries of the table in force that name a queue and a template (R178). -/
def State.entriesFor (s : State) (q tmpl : Nat) : List WheelEntry :=
  match s.wheel.table with
  | some w => w.entries.filter (fun e => e.template == tmpl && e.queue == q)
  | none => []

/-- The priority of a queue in force (R192). -/
def State.prio (s : State) (q : Nat) : Nat := (mget s.sched.held q).getD (s.get (Od.Q_PRIO q))

/-- Order of a job on its unit: an open window's job, an overrun job, then the best-effort levels (R179, R180, R182). -/
def State.level (s : State) (j : Job) : Nat :=
  match j.window with
  | some w => if w.overrun then 4 else 5
  | none => s.prio j.id.q.val

/-- A started job that wants its unit. -/
def Job.wants (j : Job) (u : SchedUnit) : Bool := j.phase == .started && j.unit == some u && !j.blocked

/-- The job that holds a unit: the one whose command it runs or ran last. -/
def State.holder (s : State) (u : SchedUnit) : Option JobId :=
  (s.sched.running.find? (fun e => e.1 == u)).map (·.2)

def State.incomingOf (s : State) (u : SchedUnit) : Option (JobId × Nat) :=
  (s.sched.incoming.find? (fun e => e.1 == u)).map (·.2)

def State.hold (s : State) (u : SchedUnit) (id : JobId) : State :=
  { s with sched := { s.sched with running := (u, id) :: s.sched.running.filter (fun e => e.1 != u && e.2 != id) } }

/-- The engine (R108 code) of a unit. -/
def unitEngine : SchedUnit → Nat
  | .raster => 0
  | .nq _ => 1
  | .dibber => 1
  | .vision => 2
  | .solver => 3
  | .display => 4
  | .copy => 5
  | .control => 6

/-- A unit is at a pre-emption point: the priorities written for its queues take effect (R192). -/
def State.atPoint (s : State) (u : SchedUnit) : State :=
  { s with sched := { s.sched with held := s.sched.held.filter (fun e => engineOf e.1 != unitEngine u) } }

/-- A write of Q_PRIO: a unit that holds a job takes it at its next pre-emption point (R192). -/
def State.wrQPrio (s : State) (q v : Nat) : State :=
  let busy := s.sched.running.any (fun e => unitEngine e.1 == engineOf q)
  let s := if busy && (mget s.sched.held q).isNone then
      { s with sched := { s.sched with held := mset s.sched.held q (s.get (Od.Q_PRIO q)) } }
    else s
  s.set (Od.Q_PRIO q) v

/-- The command a started job is at. -/
def State.currentCmd (s : State) (j : Job) : List Byte :=
  if j.inList then (s.rd j.client (fld j.slot 24 8 + 64 * j.taken) 64).2.1 else j.slot

/-- A band-out layer of the job is bound to a frame, so that the job is inside its command (R300). -/
def State.inBands (s : State) (id : JobId) : Bool :=
  s.pipes.any (fun e => match e.2.bandOut with
    | some b => b.job == id && e.2.bands.any (fun x => x == .pending || x == .inProgress)
    | none => false)

/-- A job's next command waits for something of its own: a LINK_XFER for vertical blanking (R323), an INGEST_PUT in a list
for its buffer (R166). -/
def State.cmdWaits (s : State) (j : Job) : Bool :=
  let c := s.currentCmd j
  (engineOf j.id.q.val == 4 && slotOpcode c == 0x11 && fld c 24 1 ≤ 3 && !s.mayTransfer (fld c 24 1)) ||
    (engineOf j.id.q.val == 5 && slotOpcode c == 0x16 && fld c 24 1 ≤ 15 &&
      (!s.bufFree (fld c 24 1) || s.putRunning (fld c 24 1) j.id))

/-- A job can issue a command on a unit, once it has the unit. -/
def State.canIssue (s : State) (u : SchedUnit) (j : Job) : Bool := j.wants u && !s.inBands j.id && !s.cmdWaits j

/-- A job of a higher level can issue a command on the unit. -/
def State.outranked (s : State) (u : SchedUnit) (lvl : Nat) (id : JobId) : Bool :=
  s.qs.jobs.any (fun k => k.id != id && s.canIssue u k && lvl < s.level k)

/-- Turn order within a level: ascending queue number from the queue after the one served last (R182). -/
def State.turn (s : State) (u : SchedUnit) (lvl q : Nat) : Nat :=
  match s.sched.served.find? (fun e => e.1 == u && e.2.1 == lvl) with
  | some (_, _, last) => (q + 127 - last) % 128
  | none => q

/-- A queue of the same level goes first at the unit: overlapping windows take turns by command, and best-effort queues too
(R179, R182). -/
def State.outTurned (s : State) (u : SchedUnit) (j : Job) : Bool :=
  let l := s.level j
  s.qs.jobs.any (fun k => k.id != j.id && k.context == .live && s.level k == l && s.canIssue u k &&
    s.turn u l k.id.q.val < s.turn u l j.id.q.val)

/-- The queue is the one served last at the unit and the job's level. -/
def State.noteServed (s : State) (u : SchedUnit) (j : Job) : State :=
  let l := s.level j
  { s with sched := { s.sched with
    served := (u, l, j.id.q.val) :: s.sched.served.filter (fun e => e.1 != u || e.2.1 != l) } }

/-- A domain serves the commands of started jobs: it is ON, or drains (R97). -/
def State.domServes (s : State) (d : Nat) : Bool := s.domOn d || (s.pd d == 3 && !s.pwr.drained.contains d)

/-- The Dibber is within a band (R184). -/
def State.inBand (s : State) : Bool := s.pipes.any (fun e => e.2.bands.contains .inProgress)

/-- A unit stands at a pre-emption point between two commands of this model: it is not inside one. -/
def State.between (s : State) (u : SchedUnit) : Bool := !(u == .dibber && s.inBand)

/-- Asynchronous compute (R264): a best-effort DISPATCH runs in the registers that other raster work leaves free. -/
def State.async (s : State) (j : Job) : Bool :=
  j.unit == some .raster && j.window.isNone && slotOpcode (s.currentCmd j) == 0x13

/-- The unit may take the next command of a job, or the next run of its command, now (R144, R179, R182, R184, R185, R264). -/
def State.mayIssue (s : State) (j : Job) : Bool :=
  match j.unit with
  | none => false
  | some u =>
    s.alive && s.domServes (SchedUnit.domain u) && j.wants u && j.context == .live && (s.incomingOf u).isNone &&
      s.between u && (s.async j ||
        (!s.outranked u (s.level j) j.id && (j.done != 0 || !s.outTurned u j) &&
          (match (s.holder u).bind s.job with
           | some k => k.id == j.id || k.done == 0
           | none => true)))

/-! ## Placement (R183, R213) -/

/-- A quarter is ON and has no window job able to issue. -/
def State.quarterFree (s : State) (i : Fin 4) : Bool :=
  s.domOn (4 + i.val) && !s.qs.jobs.any (fun k => s.canIssue (.nq i) k && k.window.isSome)

/-- The first descriptor's tensor A of a RUN_NET, where it lies in the Millpond (R183). -/
def State.firstChoice (s : State) (j : Job) (cmd : List Byte) : State × Nat :=
  let dflt := j.id.q.val % 4
  if slotOpcode cmd != 0x10 then (s, dflt) else
  match s.rd j.client (fld cmd 24 8) 64 with
  | (s, d, none) =>
    match s.resolve j.client (fld d 32 8) false with
    | (s, some (.mill a, _)) => (s, a / mib2 / 8 % 4)
    | (s, _) => (s, dflt)
  | (s, _, some _) => (s, dflt)

/-- The quarter that takes a best-effort job, from its first choice on. -/
def State.place (s : State) (first : Nat) : Option SchedUnit :=
  (([0, 1, 2, 3] : List (Fin 4)).map (fun i => (Fin.ofNat 4 (first + i.val)))).find? s.quarterFree |>.map .nq

/-- The first command of a job: its slot, or the first command of its list. -/
def State.firstCmd (s : State) (j : Job) : State × List Byte :=
  if slotOpcode j.slot == 1 then
    let r := s.rd j.client (fld j.slot 24 8) 64
    (r.1, r.2.1)
  else (s, j.slot)

/-- The unit on which a best-effort job would run, where its domain allows a start. -/
def State.unitFor (s : State) (j : Job) : State × Option SchedUnit :=
  let e := engineOf j.id.q.val
  let fixed := fun (u : SchedUnit) => (s, if s.domOn (SchedUnit.domain u) then some u else none)
  if e == 0 then fixed .raster
  else if e == 2 then fixed .vision
  else if e == 3 then fixed .solver
  else if e == 4 then fixed .display
  else if e == 5 then fixed .copy
  else if e == 6 then fixed .control
  else
    let (s, c) := s.firstCmd j
    if slotOpcode c == 0x18 then (s, if s.domOn 9 then some .dibber else none)
    else
      let (s, first) := s.firstChoice j c
      (s, s.place first)

/-! ## Starting -/

/-- A job starts (R143). -/
def State.startJob (s : State) (j : Job) (u : SchedUnit) (w : Option WinRun) : State :=
  let q := j.id.q.val
  let s := s.putJob { j with phase := .started, unit := some u, window := w, startAt := s.now, startTick := s.get Od.TICK_COUNT, cycles := 0 }
  s.set (Od.Q_STARTED q) (s.get (Od.Q_STARTED q) + 1)

/-- The job's slot binds it to a template of the table in force: it is next in line only in a window of its (R178). -/
def State.bound (s : State) (j : Job) : Bool :=
  let t := slotTemplate (s.readSlot j).2.1.slot
  t != 0xFFFF && !(s.entriesFor j.id.q.val t).isEmpty

/-- A serving step of a session is in progress: its first job has started and not finished. -/
def State.stepRun (s : State) (k : Nat) : Option StepRun :=
  match (mget s.serving k).bind (·.step) with
  | some r => if (r.jobs.head?.bind (fun a => s.job a.job)).any (fun j => j.phase == .started) then some r else none
  | none => none

/-- The unit on which the job next in line of a queue could start now as a best-effort job, or the next step of its serving
session (R143, R181 to R183, R240). -/
def State.startable (s : State) (q : Nat) : Option SchedUnit :=
  match s.nextInLine q with
  | none => none
  | some j =>
    if s.startBlocked j.client || s.bound j then none else
    match s.checkLine j with
    | .ready s j =>
      match s.servingOf q with
      | some k => if (s.stepRun k).isSome then none else s.place (s.get (Od.SV_QUARTER k))
      | none => (s.unitFor j).2
    | _ => none

/-- Another queue of the same level, ahead of queue q in turn, has a job that can start on the unit (R182). -/
def State.startAhead (s : State) (u : SchedUnit) (q : Nat) : Bool :=
  (List.range 128).any (fun k => k != q && s.prio k == s.prio q && s.turn u (s.prio q) k < s.turn u (s.prio q) q &&
    s.startable k == some u)

/-- The job next in line of a queue starts as a best-effort job where everything allows it (R143, R178, R181 to R183). -/
def State.jobStart (s : State) (q : Nat) : State :=
  match s.nextInLine q with
  | none => s
  | some j =>
    if s.startBlocked j.client || (s.servingOf q).isSome || s.bound j then s else
    match s.checkLine j with
    | .ended s => s
    | .waits s => s
    | .ready s j =>
      match s.unitFor j with
      | (s, none) => s
      | (s, some u) =>
        if s.outranked u (s.prio q) j.id || s.startAhead u q then s else
        (s.startJob j u none).when (slotTemplate j.slot != 0xFFFF) (·.inc Od.UNBOUND_COUNT)

/-! ## Windows (R178, R180) -/

/-- The unit of an entry. -/
def WheelEntry.unit (e : WheelEntry) : SchedUnit :=
  if e.engine == 0 then .raster else if e.engine == 1 then .nq (Fin.ofNat 4 e.quarter)
  else if e.engine == 2 then .dibber else if e.engine == 3 then .vision else if e.engine == 4 then .solver
  else if e.engine == 5 then .display else if e.engine == 6 then .copy else .control

/-- A tick of this number is one of the entry's parity (R171). -/
def WheelEntry.inTick (e : WheelEntry) (tick : Nat) : Bool :=
  e.parity == 0 || (e.parity == 1) == (tick % 2 == 0)

/-- A RUN_NET in the Dibber's window or a RUN_DIBBER in a quarter's (R212). -/
def wrongUnit (u : SchedUnit) (op : Nat) : Bool :=
  match u with
  | .dibber => op == 0x10
  | .nq _ => op == 0x18
  | _ => false

/-- A window opens: the job next in line that carries its template starts; `fuel` bounds the jobs that end unstarted
before it. -/
def State.openWindow (s : State) (e : WheelEntry) : Nat → State
  | 0 => s.inc Od.WIN_IDLE_COUNT
  | fuel + 1 =>
    match s.nextInLine e.queue with
    | none => s.inc Od.WIN_IDLE_COUNT
    | some j =>
      if s.startBlocked j.client || !s.domOn (SchedUnit.domain e.unit) then s.inc Od.WIN_IDLE_COUNT
      else if s.bound j && slotTemplate (s.readSlot j).2.1.slot != e.template then s.inc Od.WIN_IDLE_COUNT
      else
        match s.checkLine j with
        | .ended s => s.openWindow e fuel
        | .waits s => s.inc Od.WIN_IDLE_COUNT
        | .ready s j =>
          if slotTemplate j.slot != e.template then s.inc Od.WIN_IDLE_COUNT
          else
            let w : WinRun := { template := e.template, lastBucket := e.stop, wcet := e.wcet, overrun := false }
            let s := s.startJob j e.unit (some w)
            if wrongUnit e.unit (slotOpcode j.slot) then
              match s.job j.id with
              | some k => s.faultJob k 1 0 0 0
              | none => s
            else s

/-- The windows whose first bucket is `b` open in the running tick (R178). -/
def State.openWindows (s : State) (b : Nat) : State :=
  match s.wheel.table with
  | none => s
  | some w => (w.entries.filter (fun e => e.start == b && e.inTick (s.get Od.TICK_COUNT))).foldl
      (fun s e => s.openWindow e (s.jobsOf e.queue).length) s

/-- A window job is overrun: counted, recorded, and gathered into the tick's event (R180). -/
def State.overrun (s : State) (j : Job) (w : WinRun) : State :=
  let s := s.putJob { j with window := some { w with overrun := true } }
  let q := j.id.q.val
  let s := (s.inc Od.OVERRUN_COUNT).set Od.LAST_OVERRUN (w.template * 2 ^ 16 + w.lastBucket * 2 ^ 8 + q)
  s.gatherN 5 1 (0x4000 + q) (engineOf q) j.handle 1

/-- The windows that end before bucket `b`, or all of them at a tick, overrun their jobs that have not completed. -/
def State.closeWindows (s : State) (ended : WinRun → Bool) : State :=
  s.qs.jobs.foldl (fun s j => match j.window with
    | some w => if !w.overrun && ended w then s.overrun j w else s
    | none => s) s

/-! ## Pre-emption and context switches (R182, R184 to R186) -/

/-- The job of the highest level that can issue on a unit, by turn within the level, then in submission order. -/
def State.bestFor (s : State) (u : SchedUnit) (p : Job → Bool) : Option Job :=
  (s.qs.jobs.filter (fun k => s.canIssue u k && p k)).foldl (fun b k => match b with
    | none => some k
    | some o =>
      if s.level o < s.level k || (s.level o == s.level k && s.turn u (s.level k) k.id.q.val < s.turn u (s.level o) o.id.q.val)
      then some k else some o) none

/-- Accumulator and staging bytes of a job at its point: those that its kernels' manifests and its bin store give, those
that the command shows elsewhere; a neural quarter holds at most 64 KiB and 256 KiB (R185, R189, R256). -/
def Job.liveAt (j : Job) (u : SchedUnit) (acc staging : Nat) : Option (Nat × Nat) :=
  match u with
  | .raster => some j.live
  | .nq _ => if acc ≤ 0x10000 && staging ≤ 0x40000 then some (acc, staging) else none
  | _ => some (acc, staging)

/-- The units whose started jobs are saved when their domain closes (R97). -/
def savesOnClose : SchedUnit → Bool
  | .raster => true
  | .nq _ => true
  | _ => false

/-! ### The bin store (R256) -/

/-- The store is held: by a pass whose job has neither taken a later command nor completed. -/
def State.binHeld (s : State) : Bool :=
  match s.raster.binHolder with
  | some h => s.qs.jobs.any (fun j => j.id == h)
  | none => false

/-- Tiled passes that wait for the store, in order. -/
def State.binWaiting (s : State) : List JobId :=
  s.raster.binQueue.filter (fun id => s.qs.jobs.any (fun j => j.id == id && j.phase == .started && j.blocked))

/-- A command of a client is a tiled pass. -/
def State.tiledCmd (s : State) (cl : Nat) (c : List Byte) : Bool :=
  slotOpcode c == 0x12 && bitOf (fld (s.rd cl (fld c 24 8) 1).2.1 0 1) 0

/-- A job's command, or one its list still holds, needs the store. -/
def State.needsStore (s : State) (j : Job) : Bool :=
  if slotOpcode j.slot == 1 then
    (rangeFrom j.taken (min (fld j.slot 32 4) 65535 - j.taken)).any (fun i =>
      s.tiledCmd j.client (s.rd j.client (fld j.slot 24 8 + 64 * i) 64).2.1)
  else s.tiledCmd j.client j.slot

/-- Bin store bytes that the tiled pass of a job uses, where it holds the store. -/
def State.storeUsed (s : State) (id : JobId) : Nat :=
  match s.raster.works.find? (fun e => e.1 == id) with
  | some (_, .pass w) => if s.raster.binHolder == some id then w.used else 0
  | _ => 0

/-- A job for whose sake a pass gives up the store: a tiled pass of a higher level that waits for it. -/
def State.storeWaiter (s : State) (h : Job) : Option Job :=
  if s.raster.binHolder != some h.id then none else
  (s.binWaiting.filterMap s.job).find? (fun k => s.level h < s.level k)

/-- The time, in ns, that a unit's clock takes for some cycles. -/
def State.cyclesNs (s : State) (u : SchedUnit) (n : Nat) : Nat := ceilDiv (1000 * n) (max 1 (s.unitMhz u))

/-- The context that a job has now. -/
def State.contextOf (s : State) (id : JobId) : Context := ((s.job id).map (·.context)).getD .live

/-- The job that runs on a unit: the one that holds it, or else one that stands within its command there. -/
def State.onUnit (s : State) (u : SchedUnit) : Option Job :=
  ((s.holder u).bind s.job).or (s.qs.jobs.find? (fun k => k.wants u && k.context == .live && k.done != 0))

/-- A pre-emption point of the job that runs on a unit: where its domain closes, or a window job or a higher level can issue,
the context is saved, and in the second case the switch begins. Window jobs are never pre-empted by best-effort work. -/
def State.preempt (s : State) (u : SchedUnit) (acc staging : Nat) : State :=
  let s := if s.between u then s.atPoint u else s
  match s.onUnit u with
  | none => s
  | some h =>
    if !h.wants u || (s.incomingOf u).isSome || !s.between u then s else
    match h.liveAt u acc staging with
    | none => s
    | some (a, b) =>
      let idle := fun (s : State) => { s with sched := { s.sched with running := s.sched.running.filter (fun e => e.1 != u) } }
      if savesOnClose u && s.pd (SchedUnit.domain u) == 3 then idle (s.saveContext h a b)
      else match (s.bestFor u (fun k => k.id != h.id && s.level h < s.level k)).or
          (if u == .raster then s.storeWaiter h else none) with
        | none => s
        | some k =>
          -- a job that needs the bin store: the pass's bytes in it are saved too, and the store is handed over (R256)
          let yields := u == .raster && s.needsStore k && s.raster.binHolder == some h.id
          let s := idle (s.saveContext h a (if yields then b + s.storeUsed h.id else b))
          let s := if yields then { s with raster := { s.raster with binHolder := none } } else s
          let t := s.cyclesNs u ((s.contextOf h.id).cycles + k.context.cycles)
          { s with sched := { s.sched with incoming := (u, k.id, s.now + t) :: s.sched.incoming.filter (fun e => e.1 != u) } }

/-- A job runs on a unit with its context restored; from DRAM, that is a DRAM request (R131, R185, R186). -/
def State.restore (s : State) (u : SchedUnit) (k : Job) : State :=
  let s := match k.context with
    | .toDram _ _ => s.touchDram
    | _ => s
  let s := ((s.putJob { k with context := .live }).hold u k.id).noteServed u k
  { s with sched := { s.sched with incoming := s.sched.incoming.filter (fun e => e.1 != u) } }

/-- A context switch ends, once its cycles have passed: the incoming job runs; a saved job is restored to a unit that no other
job is inside. -/
def State.switchDone (s : State) (u : SchedUnit) : State :=
  match s.incomingOf u with
  | some (id, t) =>
    if s.now < t then s else
    match s.job id with
    | some k => s.restore u k
    | none => s
  | none =>
    if ((s.holder u).bind s.job).any (fun k => k.done != 0) || !s.domOn (SchedUnit.domain u) then s else
    let s := s.atPoint u
    match s.bestFor u (fun _ => true) with
    | some k => if k.context == .live then s else s.restore u k
    | none => s

/-! ## Taking commands (R140, R144) -/

/-- What a command row finds at its job. -/
inductive Take where
  /-- the job's next command is not this one, or cannot be taken now -/
  | none_ (s : State)
  /-- the job has ended -/
  | ended (s : State)
  | cmd (s : State) (j : Job) (c : List Byte)
  deriving DecidableEq

def Job.listCount (j : Job) : Nat := fld j.slot 32 4

/-- First field of a list command that breaks R140: cause and offset. -/
def listBad (q : Nat) (c : List Byte) : Option (Nat × Nat) :=
  if slotOpcode c == 1 then some (2, 0)
  else if !zeros c 1 23 then
    -- the fields of R138
    some (2, (([(1, 1), (2, 2), (4, 2), (6, 2), (8, 4), (12, 4), (16, 8)] : List (Nat × Nat)).find?
      (fun f => !zeros c f.1 f.2)).elim 1 (·.1))
  else if !opcodeKnown q (slotOpcode c) then some (1, 0)
  -- R231, R235: the queue of a list is no serving queue
  else if 0x20 ≤ slotOpcode c && slotOpcode c ≤ 0x22 && engineOf q == 1 then some (2, 24)
  else none

/-- A best-effort list that mixes RUN_NET and RUN_DIBBER moves to the unit of each command (R212): none where that unit
cannot take it now. -/
def State.rehome (s : State) (j : Job) (c : List Byte) : Option (State × Job) :=
  let op := slotOpcode c
  if engineOf j.id.q.val != 1 || j.window.isSome then some (s, j) else
  let move := fun (s : State) (u : SchedUnit) =>
    let k := { j with unit := some u }
    let s := s.putJob k
    some ({ s with sched := s.sched.release j.id }, k)
  if op == 0x18 && j.unit != some .dibber then (if s.domOn 9 then move s .dibber else none)
  else if op == 0x10 && j.unit == some .dibber then
    let (s, first) := s.firstChoice j c
    match s.place first with
    | some u => move s u
    | none => none
  else some (s, j)

/-- A unit takes a command of a job: it holds the unit, and its queue is the one served last. Asynchronous compute beside
another job's command leaves the unit with that job. -/
def State.begin_ (s : State) (j : Job) : State :=
  match j.unit with
  | some u =>
    if s.async j && ((s.holder u).bind s.job).any (fun k => k.id != j.id && k.done != 0) then s
    else (s.noteServed u j).hold u j.id
  | none => s

/-- The job's next command, where it has the opcode of the row and the unit may take it. -/
def State.takeCmd (s : State) (id : JobId) (op : Nat) : Take :=
  match s.job id with
  | none => .none_ s
  | some j =>
    if !s.mayIssue j || s.inBands id then .none_ s else
    if !j.inList then
      if slotOpcode j.slot == op then .cmd (s.begin_ j) j j.slot else .none_ s
    else
      match s.rd j.client (fld j.slot 24 8 + 64 * j.taken) 64 with
      | (s, _, some f) => .ended (s.faultMem j f 0 0)
      | (s, c, none) =>
        match listBad id.q.val c with
        | some (cause, off) => .ended (s.faultJob j cause 0 off 0)
        | none =>
          if slotOpcode c != op then .none_ s
          else if j.window.isSome && (match j.unit with
              | some u => wrongUnit u op
              | none => false) then .ended (s.faultJob j 1 0 0 0)
          else match s.rehome j c with
            | some (s, j) => if s.mayIssue j then .cmd (s.begin_ j) j c else .none_ s
            | none => .none_ s

/-- Poll the list of a started INDIRECT job: its list rules are checked when the command is taken. -/
def State.takeList (s : State) (id : JobId) : State :=
  match s.job id with
  | none => s
  | some j =>
    if !s.mayIssue j || slotOpcode j.slot != 1 then s
    else if !j.inList then
      -- the slot's own fields (R139, R140)
      if fld j.slot 24 8 % 64 != 0 then s.faultJob j 2 0 24 0
      else if j.listCount == 0 || j.listCount > 65535 then s.faultJob j 2 0 32 0
      else if !zeros j.slot 36 28 then s.faultJob j 2 0 36 0
      else s.putJob { j with inList := true, taken := 0 }
    else
      match s.rd j.client (fld j.slot 24 8 + 64 * j.taken) 64 with
      | (s, _, some f) => s.faultMem j f 0 0
      | (s, c, none) =>
        match listBad id.q.val c with
        | some (cause, off) => s.faultJob j cause 0 off 0
        | none => s

/-- A command of a started job has taken effect: its flags join the job's, and the list goes on or the job has finished. -/
def State.endCmd (s : State) (id : JobId) (status : Nat) (detail : List Byte) (fl : Nat) : State :=
  match s.job id with
  | none => s
  | some j =>
    if j.phase != .started then s else
    let j := { j with flags := j.flags ||| fl, blocked := false, done := 0, desc := [], live := (0, 0) }
    let s := match j.unit with
      | some u => s.atPoint u
      | none => s
    if status == St.OK && j.inList && j.taken + 1 < j.listCount then s.putJob { j with taken := j.taken + 1 }
    -- what a band-out layer leaves for `DETAIL` outlasts the commands after it (R303)
    else s.finishJob j status (if status == St.OK && detail.isEmpty then j.detail else detail)

/-- Flags raised before a command failed stay with the job (R207). -/
def State.addFlags (s : State) (id : JobId) (fl : Nat) : State :=
  match s.job id with
  | none => s
  | some j => s.putJob { j with flags := j.flags ||| fl }

/-- The started job of an identifier faults. -/
def State.faultCmd (s : State) (id : JobId) (cause struct off va : Nat) : State :=
  match s.job id with
  | none => s
  | some j => if j.phase != .started then s else s.faultJob j cause struct off va

def State.faultCmdMem (s : State) (id : JobId) (f : MemFault) (struct off : Nat) : State :=
  s.faultCmd id f.cause struct off f.va

/-! ## Commands -/

/-- `JOB_START` (R143). -/
def execJobStart (dt : Nat) (q : Fin 128) (s : State) : Res := .next ((s.advance dt).jobStart q.val)

/-- `PREEMPTION_POINT` (R184): accumulators at most 64 KiB and staging at most 256 KiB on a neural quarter (R185). -/
def execPreemptionPoint (dt : Nat) (u : SchedUnit) (acc staging : Nat) (s : State) : Res :=
  .next ((s.advance dt).preempt u acc staging)

/-- `CONTEXT_SWITCH_DONE` (R185). -/
def execContextSwitchDone (dt : Nat) (u : SchedUnit) (s : State) : Res := .next ((s.advance dt).switchDone u)

/-- `NOP` (R139): all 40 payload bytes are reserved. -/
def execNop (dt : Nat) (j : JobId) (s : State) : Res :=
  .next (match (s.advance dt).takeCmd j 0 with
    | .none_ s => s
    | .ended s => s
    | .cmd s _ c => if zeros c 24 40 then s.endCmd j St.OK [] 0 else s.faultCmd j 2 0 24 0)

/-- `INDIRECT` (R140): the job's list is taken; its commands then follow one by one. -/
def execIndirect (dt : Nat) (j : JobId) (s : State) : Res := .next ((s.advance dt).takeList j)

end Sys2Proof.Machine
end

