-- ==== Sys2Proof/Machine/Wheel.lean ====
section
/-! DEFINITION. The Waterwheel table: its image, its checks, admission, loading and unloading (R170 to R177). -/

namespace Sys2Proof.Machine

/-! ## The image (R170, R171) -/

def entryOf (b : List Byte) (e : Nat) : WheelEntry :=
  let o := 64 + 16 * e
  let m := fld b (o + 2) 1
  { template := fld b o 2, parity := bitsOf m 6 2, quarter := bitsOf m 4 2, engine := bitsOf m 0 4,
    queue := bitsOf (fld b (o + 3) 1) 0 7, start := fld b (o + 4) 1, stop := fld b (o + 5) 1, wcet := fld b (o + 8) 4 }

def wheelOf (b : List Byte) : Wheel :=
  { tickNs := fld b 8 4, spll := fld b 12 2, npll := fld b 14 2, vpll := fld b 16 2, cpll := fld b 18 2,
    mpll := fld b 20 2, entries := (List.range (fld b 4 2)).map (entryOf b) }

/-- A queue serves the engine of a unit code (R133, R169). -/
def serves (code q : Nat) : Bool :=
  let e := engineOf q
  if code == 0 then e == 0 else if code ≤ 2 then e == 1 else e + 1 == code

/-- Two entries run in a tick of one parity. -/
def meetParity (a b : WheelEntry) : Bool := a.parity == 0 || b.parity == 0 || a.parity == b.parity

/-- Two entries name one queue with windows that overlap (R172). -/
def clash (a b : WheelEntry) : Bool :=
  a.queue == b.queue && meetParity a b && a.start ≤ b.stop && b.start ≤ a.stop

/-- No two elements of a list are related. -/
def noPair {α : Type} (r : α → α → Bool) : List α → Bool
  | [] => true
  | a :: l => !l.any (r a) && noPair r l

/-- The admission clock of a unit code, in MHz (R169). -/
def Wheel.clock (w : Wheel) (code : Nat) : Nat :=
  if code == 0 then w.spll else if code ≤ 2 then w.npll else if code ≤ 4 then w.vpll else if code == 5 then 400
  else if code == 6 then w.mpll else w.cpll

/-- The PLL that clocks a unit code. -/
def codePll (code : Nat) : Option Nat :=
  if code == 0 then some 2 else if code ≤ 2 then some 1 else if code ≤ 4 then some 3 else if code == 5 then none
  else if code == 6 then some 4 else some 0

def WheelEntry.ok (e : WheelEntry) : Bool :=
  e.engine ≤ 7 && e.parity != 3 && e.start ≤ e.stop && e.template != 0xFFFF && 1 ≤ e.wcet &&
    (e.quarter == 0 || e.engine == 1) && serves e.engine e.queue

/-- A table image is well formed (R172). -/
def State.wheelOk (s : State) (b : List Byte) : Bool :=
  let w := wheelOf b
  let n := fld b 4 2
  64 ≤ b.length && fld b 0 4 == 0x57574C31 && n ≤ 1024 && b.length == 64 + 16 * n && zeros b 6 2 && zeros b 22 42 &&
    2500000 ≤ w.tickNs && w.tickNs ≤ 50000000 &&
    (List.range n).all (fun e => let o := 64 + 16 * e
      fld b (o + 3) 1 < 128 && zeros b (o + 6) 2 && zeros b (o + 12) 4) &&
    w.entries.all WheelEntry.ok && noPair clash w.entries &&
    w.entries.all (fun e => match codePll e.engine with
      | none => true
      | some p => w.clock e.engine != 0 && w.clock e.engine ≤ s.pllReq p)

/-! ## Admission (R173) -/

/-- Capacity of a unit in one bucket, in cycles. -/
def Wheel.cap (w : Wheel) (code : Nat) : Nat := w.clock code * w.tickNs / 256 / 1000

/-- Scheduling units in the order of `ADM_FAIL`: code and quarter. -/
def admUnits : List (Nat × Nat) :=
  [(0, 0), (1, 0), (1, 1), (1, 2), (1, 3), (2, 0), (3, 0), (4, 0), (5, 0), (6, 0), (7, 0)]

/-- Load of a unit in a bucket of a tick of parity 1 (even) or 2 (odd), as a fraction. -/
def Wheel.load (w : Wheel) (code quarter parity bucket : Nat) : Nat × Nat :=
  (w.entries.filter (fun e => e.engine == code && e.quarter == quarter && (e.parity == 0 || e.parity == parity) &&
      e.start ≤ bucket && bucket ≤ e.stop)).foldl
    (fun (f : Nat × Nat) e =>
      let n := e.stop - e.start + 1
      let d := Nat.lcm f.2 n
      (f.1 * (d / f.2) + e.wcet * (d / n), d)) (0, 1)

/-- Load in per mille of capacity, rounded down. -/
def perMille (f : Nat × Nat) (cap : Nat) : Nat := 1000 * f.1 / (f.2 * cap)

/-- Every combination of unit, quarter, parity and bucket in the order of R173. -/
def admCombos (w : Wheel) : List (Nat × Nat × Nat × Nat) :=
  (admUnits.filter (fun u => w.entries.any (fun e => e.engine == u.1 && e.quarter == u.2))).flatMap
    (fun u => ([1, 2] : List Nat).flatMap (fun p => (List.range 256).map (fun b => (u.1, u.2, p, b))))

/-- The first failing combination, as `ADM_FAIL` reports it. -/
def Wheel.admFail (w : Wheel) : Option Nat :=
  (admCombos w).findSome? (fun c =>
    let (u, q, p, b) := c
    let f := w.load u q p b
    if 10 * f.1 ≤ 9 * w.cap u * f.2 then none
    else some (u * 2 ^ 28 + q * 2 ^ 26 + p * 2 ^ 24 + b * 2 ^ 16 + min 0xFFFF (perMille f (w.cap u))))

/-- The highest load of a table, per mille. -/
def Wheel.peak (w : Wheel) : Nat :=
  (admCombos w).foldl (fun m c => max m (perMille (w.load c.1 c.2.1 c.2.2.1 c.2.2.2) (w.cap c.1))) 0

/-! ## Loading (R174) -/

/-- The slot of a running load. -/
def State.wheelSlot (s : State) : Option Nat := (s.ops.find? (fun o => o.kind == .wheelLoad)).map (·.slot.val)

def State.finishWheel (s : State) (result : Nat) : State :=
  match s.wheelSlot with
  | some i => s.finishOp i result
  | none => s

/-- A table takes effect. -/
def State.putWheel (s : State) (w : Wheel) (peak : Nat) : State :=
  let s := { s with wheel := { s.wheel with table := some w, ready := none, image := none } }
  (s.sets [(Od.WHEEL_ACTIVE, 1), (Od.WHEEL_LEN, w.entries.length), (Od.WHEEL_TICK_NS, w.tickNs), (Od.ADM_FAIL, 0),
           (Od.ADM_PEAK, peak)]).finishWheel Ab.OK

/-- The table in force leaves (R175). -/
def State.dropWheel (s : State) : State :=
  let s := { s with wheel := { s.wheel with table := none, unloadAt := none } }
  s.sets [(Od.WHEEL_ACTIVE, 0), (Od.WHEEL_LEN, 0), (Od.WHEEL_TICK_NS, 0), (Od.ADM_PEAK, 0)]

/-- A write of 0x3E11 to WHEEL_LOAD takes a copy of the image (R174 step 2). -/
def State.wrWheelLoad (s : State) (via : Path) : WRes :=
  if s.opRunning .wheelLoad then .no s Ab.BUSY
  else .start s .wheelLoad via Od.WHEEL_LOAD
    (fun s => { s with wheel := { s.wheel with image := some (s.getDom Od.WHEEL_IMAGE), ready := none } })

/-- The checks of a table end (R174 steps 3 and 4). -/
def State.wheelCheckDone (s : State) : State :=
  match s.wheel.image with
  | none => s
  | some b =>
    let s := { s with wheel := { s.wheel with image := none } }
    let w := wheelOf b
    if !s.wheelOk b then s.finishWheel Ab.RANGE
    else match w.admFail with
      | some f => (s.set Od.ADM_FAIL f).finishWheel Ab.RANGE
      | none =>
        if !w.entries.all (fun e => s.domOn (unitDomain e.engine e.quarter)) then s.finishWheel Ab.DOMAIN_OFF
        else if s.on Od.TICK_EN then { s with wheel := { s.wheel with ready := some (w, w.peak, s.now) } }
        else s.putWheel w w.peak

/-- A write of 0x0FF0 to WHEEL_UNLOAD (R174, R175). -/
def State.wrWheelUnload (s : State) : WRes :=
  if s.opRunning .wheelLoad then .no s Ab.BUSY
  else if s.wheel.table.isNone then .ok s
  else if s.on Od.TICK_EN then .ok { s with wheel := { s.wheel with unloadAt := some (s.wheel.unloadAt.getD s.now) } }
  else .ok s.dropWheel

/-- At a tick of time `at_`, a table waiting to leave leaves, and one waiting to take effect takes effect. -/
def State.wheelAtTick (s : State) (at_ : Nat) : State :=
  let s := match s.wheel.unloadAt with
    | some t => if t < at_ then s.dropWheel else s
    | none => s
  match s.wheel.ready with
  | some (w, p, t) => if t < at_ then s.putWheel w p else s
  | none => s

/-- `WHEEL_CHECK_DONE` (R174). -/
def execWheelCheckDone (dt : Nat) (s : State) : Res := .next (s.advance dt).wheelCheckDone

end Sys2Proof.Machine
end

