-- ==== Sys2Proof/Machine/LeatOps.lean ====
section
/-! DEFINITION. Leat packets: their layout, sending, receiving and routing (R332 to R335), and the cascade's tick
number and hold states (R338, R349). -/

namespace Sys2Proof.Machine

/-- Header and payload of a packet (R333). -/
structure Pkt where
  typ : Nat
  dst : Nat
  bcast : Bool
  src : Nat
  xfer : Nat
  slot : Nat
  addr : Nat
  ctick : Nat
  offset : Nat
  total : Nat
  data : List Byte
  deriving DecidableEq

namespace PT
def DATA : Nat := 1
def DOORBELL : Nat := 2
def TICK : Nat := 3
def SEAM : Nat := 4
def READ_REQ : Nat := 5
def READ_DATA : Nat := 6
def DONE : Nat := 7
def DISCOVER : Nat := 8
def DISCOVER_REPLY : Nat := 9
def CONFIG : Nat := 10
end PT

def Pkt.bytes (p : Pkt) : List Byte :=
  toLe 1 p.typ ++ toLe 1 (p.dst % 8 * 32 + (if p.bcast then 16 else 0) + p.src % 8 * 2) ++ toLe 2 p.xfer ++
    toLe 2 p.data.length ++ toLe 1 p.slot ++ [0] ++ toLe 8 (p.addr % 2 ^ 40) ++ toLe 8 (p.ctick % 2 ^ 48) ++
    toLe 4 p.offset ++ toLe 4 p.total ++ p.data

def pktOf (b : List Byte) : Pkt :=
  let m := fld b 1 1
  { typ := fld b 0 1, dst := bitsOf m 5 3, bcast := bitOf m 4, src := bitsOf m 1 3, xfer := fld b 2 2,
    slot := fld b 6 1, addr := fld b 8 8, ctick := fld b 16 8, offset := fld b 24 4, total := fld b 28 4,
    data := slice b 32 (fld b 4 2) }

/-- The trailer of a link (R333): CRC, per-link number, reserved bytes. -/
def withTrailer (body : List Byte) (lseq : Nat) : List Byte :=
  body ++ toLe 4 (crc32 body) ++ toLe 2 lseq ++ [0, 0]

/-- The packet has a known type, a payload of the length it names and no reserved bit set (R333). DEDUCED: one whose bytes are
not those that `LEN` names is discarded in the same way (log entry 43). -/
def pktLayoutOk (b : List Byte) : Bool :=
  let n := fld b 4 2
  40 ≤ b.length && n ≤ 256 && b.length == 40 + n && 1 ≤ fld b 0 1 && fld b 0 1 ≤ 10 && !bitOf (fld b 1 1) 0 &&
    fld b 7 1 == 0 && fld b 8 8 < 2 ^ 40 && fld b 16 8 < 2 ^ 48 && zeros b (b.length - 2) 2

def State.portUp (s : State) (port : Nat) : Bool := s.domOn 10 && s.get (Od.LP_STATE port) == 2

/-- Add to a 48-bit counter held in a 64-bit object. -/
def State.add48 (s : State) (k n : Nat) : State := s.incBy k n

/-- A packet leaves a port that is UP (R333, R334): it takes the link's next number and joins the replay buffer. -/
def State.sendOn (s : State) (port : Nat) (p : Pkt) : State :=
  if !s.portUp port then s else
  let n := mgetD s.leat.txSeq port 0
  let b := withTrailer p.bytes n
  let buf := mgetD s.leat.replay port [] ++ [b]
  let s := { s with leat := { s.leat with
    txSeq := mset s.leat.txSeq port ((n + 1) % 2 ^ 16),
    replay := mset s.leat.replay port (buf.drop (buf.length - 64)) } }
  (s.add48 (Od.LP_TX_BYTES port) p.data.length).emit (.leat port b)

/-- The port of a destination: none where `CAS_ROUTE` marks it unreachable or local (R335). -/
def State.routeOf (s : State) (dev : Nat) : Option Nat :=
  let r := s.get (Od.CAS_ROUTE dev)
  if r == 1 then some 0 else if r == 2 then some 1 else none

/-- Send toward a destination, or out of both ports for a broadcast (R335). -/
def State.send (s : State) (p : Pkt) : State :=
  if p.bcast then (s.sendOn 0 p).sendOn 1 p
  else match s.routeOf p.dst with
    | some port => s.sendOn port p
    | none => s

/-- The next transfer number (R333). -/
def State.takeXferId (s : State) : Nat × State :=
  (s.leat.nextId, { s with leat := { s.leat with nextId := (s.leat.nextId + 1) % 2 ^ 16 } })

/-- Cascade tick number (R338). -/
def State.cascadeTick (s : State) : Nat := (s.get Od.TICK_COUNT + s.get Od.CAS_TICK_OFFSET) % 2 ^ 48

def State.devId (s : State) : Nat := s.strapDevId

/-- A packet of this device. -/
def State.mkPkt (s : State) (typ dst : Nat) (bcast : Bool) (xfer : Nat) : Pkt :=
  { typ := typ, dst := if bcast then 0 else dst, bcast := bcast, src := s.devId, xfer := xfer, slot := 0, addr := 0,
    ctick := s.cascadeTick, offset := 0, total := 0, data := [] }

/-- The member of a formed or degraded cascade. -/
def State.inCascade (s : State) : Bool := s.get Od.CAS_STATE == 2 || s.get Od.CAS_STATE == 3

/-- `CAS_HOLD_STATE` changes with one event (R349). -/
def State.setHold (s : State) (v : Nat) : State :=
  if s.get Od.CAS_HOLD_STATE == v then s else (s.set Od.CAS_HOLD_STATE v).post 6 4 0x8000 0 v

/-- Hold and blank of a follower at a tick (R349). -/
def State.holdAtTick (s : State) (substituted : Bool) : State :=
  if substituted && s.inCascade && s.on Od.CAS_ROLE then
    let n := s.leat.substRun + 1
    let s := { s with leat := { s.leat with substRun := n } }
    s.setHold (if n ≥ s.get Od.HOLD_TICKS then 2 else 1)
  else { s with leat := { s.leat with substRun := 0 } }.setHold 0

/-- The handle-table slot of a running formation. -/
def State.formSlot (s : State) : Option Nat := (s.ops.find? (fun o => o.kind == .casForm)).map (·.slot.val)

def State.finishForm (s : State) (result : Nat) : State :=
  match s.formSlot with
  | some i => s.finishOp i result
  | none => s

/-- Bit set of device numbers. -/
def devMask (l : List Nat) : Nat := l.foldl (fun m d => m ||| 2 ^ d) 0

/-- The cascade at a tick of this device: a master completes its formation (R340 steps 5 and 6) and broadcasts its
TICK packet (R338). DEDUCED: a device strapped master does so at each of its ticks, in a cascade or not (log entry 44). -/
def State.cascadeAtTick (s : State) : State :=
  if s.on Od.CAS_ROLE then s else
  let s := match s.leat.formTick with
    | some t =>
      if s.get Od.TICK_COUNT ≥ t then
        let s := { s with leat := { s.leat with formTick := none } }
        let members := (List.range 8).filter (fun d => s.get (Od.CAS_ROUTE d) != 3)
        (s.sets [(Od.CAS_STATE, 2), (Od.CAS_MEMBERS, devMask members)]).finishForm Ab.OK
      else s
    | none => s
  let (id, s) := s.takeXferId
  s.send (s.mkPkt PT.TICK 0 true id)

/-! ## Receiving (R334, R335) -/

/-- A packet arrives at a port: none when it is discarded or the port is not UP. -/
def State.receive (s : State) (port : Nat) (b : List Byte) : State × Option Pkt :=
  if !s.portUp port || !s.alive then (s, none)
  else
    let body := b.take (b.length - 8)
    let exp := mgetD s.leat.rxSeq port 0
    if b.length < 40 || crc32 body != fld b (b.length - 8) 4 || fld b (b.length - 4) 2 != exp
    then (s.inc (Od.LP_CRC_ERR port), none)
    else
      let s := { s with leat := { s.leat with rxSeq := mset s.leat.rxSeq port ((exp + 1) % 2 ^ 16) } }
      if !pktLayoutOk b then (s.inc (Od.LP_CRC_ERR port), none)
      else
        let p := pktOf b
        (s.add48 (Od.LP_RX_BYTES port) p.data.length, some p)

/-- A received packet is for this device, is forwarded, or both (R335). -/
def State.forward (s : State) (port : Nat) (p : Pkt) : State × Bool :=
  if p.bcast then (if p.src == s.devId then (s, false) else (s.sendOn (1 - port) p, true))
  else if p.dst == s.devId then (s, true)
  else (s.send p, false)

end Sys2Proof.Machine
end

