-- ==== Sys2Proof/Machine/Tick.lean ====
section
/-! DEFINITION. The tick: sources, runts, substitution, switch-over, buckets, TICK_OUT and the tick objects
(R10 to R21, R74, R75). Times are in ns of `now`; `at_` is the time of the edge itself. -/

namespace Sys2Proof.Machine

/-! ## End of substitution -/

/-- Substitution ends with one event (R18, R349). -/
def State.endSubst (s : State) : State :=
  if s.on Od.SUBST_ACTIVE then
    ((s.set Od.SUBST_ACTIVE 0).post 3 3 0x2100 0 0).holdAtTick false
  else s

/-- A substituted tick is counted; the first one begins substitution (R18). -/
def State.countSubst (s : State) : State :=
  let s := s.inc Od.SUBST_COUNT
  if s.on Od.SUBST_ACTIVE then s else (s.set Od.SUBST_ACTIVE 1).post 3 2 0x2100 0 0

/-! ## Objects -/

/-- A write of GEN_PERIOD_NS (R19). DESIGN CHOICE: the object reads the value written at once, and `genPeriod` holds the
one in force until the switch-over tick (log entry 48). -/
def State.wrGenPeriod (s : State) (v : Nat) : State :=
  let s := s.set Od.GEN_PERIOD_NS v
  if s.on Od.TICK_EN then { s with tick := { s.tick with pendPeriod := s.tick.pendPeriod ++ [(v, s.now)] } }
  else { s with tick := { s.tick with genPeriod := v } }

/-- A source is in force; where it replaces another, no period of it has been measured (R18, R19). -/
def TickSt.select (t : TickSt) (src : Nat) : TickSt :=
  if src == t.src then t else { t with src := src, realPeriod := none, lastReal := false }

/-- An accepted write of TICK_SRC (R19). DESIGN CHOICE: the object reads the value written at once, and `src` holds the
source in force until the switch-over tick (log entry 48). -/
def State.setTickSrc (s : State) (v : Nat) : State :=
  let s := s.set Od.TICK_SRC v
  if s.on Od.TICK_EN then { s with tick := { s.tick with pendSrc := s.tick.pendSrc ++ [(v, s.now)] } }
  else { s with tick := s.tick.select v }

/-- A write of TICK_SRC (R19, R341). -/
def State.wrTickSrc (s : State) (v : Nat) : WRes :=
  if s.inCascade && s.on Od.CAS_ROLE then .no s Ab.BUSY else .ok (s.setTickSrc v)

/-- The value of the newest of some waiting writes; `v` where there is none. -/
def lastWritten (p : List (Nat × Nat)) (v : Nat) : Nat := (p.getLast?.map (·.1)).getD v

/-- Pending writes take effect at once when ticks stop (R16, R19). -/
def TickSt.settle (t : TickSt) : TickSt :=
  { t.select (lastWritten t.pendSrc t.src) with
    genPeriod := lastWritten t.pendPeriod t.genPeriod, pendSrc := [], pendPeriod := [] }

/-- Ticks start (R14): none has occurred since this moment. -/
def State.startTicks (s : State) : State :=
  { s.set Od.TICK_EN 1 with
    tick := { s.tick with since := 0, enAt := s.now, lastReal := false, realPeriod := none } }

/-- Ticks stop at once (R16): buckets, substitution, pending source, period and frequency changes; the Governor's boot
period starts (R351). A table whose load waited for a tick is put in force. -/
def State.stopTicks (s : State) : State :=
  let s := ((s.flushGather.set Od.TICK_EN 0).set Od.CUR_BUCKET 0).set Od.GOV_STATE 0
  let s := s.endSubst
  let s := { s with tick := { s.tick.settle with since := 0 }, watch := { s.watch with govAt := s.now, govTicks := 0 } }
  let s := [0, 1, 2, 3, 4].foldl (fun (s : State) p =>
    if (mget s.pwr.pllPending p).isSome && (mget s.pwr.pllChanging p).isNone then s.startPll p else s) s
  match s.wheel.ready with
  | some (w, p, _) => s.putWheel w p
  | none => s

/-- A write of TICK_EN (R14, R16, R111, R378). DEDUCED: while a self-test runs, a write of 0 that finds 0 answers BUSY as
R378 says of every write, not OK as R16 says of a device that tests nothing (log entry 48). -/
def State.wrTickEn (s : State) (v : Nat) : WRes :=
  if s.selftesting then .no s Ab.BUSY
  else if v == 0 then
    if !s.on Od.TICK_EN then .ok s
    else if s.wheel.table.isSome then .no s Ab.BUSY
    else .ok s.stopTicks
  else if s.on Od.TICK_EN then .ok s
  -- R111
  else if s.opRunning .memTrain then .no s Ab.BUSY
  else .ok s.startTicks

/-- TICK_OUT follows `TICK_OUT_EN` (R20, R75). -/
def State.wrTickOutEn (s : State) (v : Nat) : State :=
  let s := s.set Od.TICK_OUT_EN v
  s.when (v == 0) (·.driveTickOut .low)

/-! ## A tick -/

/-- The measured period of the tick that ends, and whether it is irregular (R13). -/
def State.measure (s : State) (at_ : Nat) : State :=
  if s.tick.since == 0 then s else
  let m := (at_ - s.tB) - s.get Od.TICK_TS
  let p := s.tick.predicted
  let s := s.set Od.PERIOD_NS m
  if 256 * (if m < p then p - m else m - p) > p then (s.inc Od.IRREG_COUNT).post 3 1 0x2100 0 0 else s

/-- The counter (R15). -/
def State.countTick (s : State) : State :=
  let s := if s.tick.ever then s.set Od.TICK_COUNT ((s.get Od.TICK_COUNT + 1) % 2 ^ 48) else s
  { s with tick := { s.tick with ever := true } }

/-- The pending writes that a tick of time `at_` puts in force: those accepted before it (R19). -/
def due (p : List (Nat × Nat)) (at_ : Nat) : List (Nat × Nat) := p.filter (fun x => x.2 < at_)

/-- The pending writes that wait on after a tick of time `at_`. -/
def notDue (p : List (Nat × Nat)) (at_ : Nat) : List (Nat × Nat) := p.filter (fun x => !(x.2 < at_))

/-- The tick of time `at_` is the switch-over tick of a change of source (R19): a write of the source in force is none. -/
def TickSt.srcChanges (t : TickSt) (at_ : Nat) : Bool := lastWritten (due t.pendSrc at_) t.src != t.src

/-- The tick of time `at_` is the switch-over tick of a change of the generator's period (R19). -/
def TickSt.periodChanges (t : TickSt) (at_ : Nat) : Bool := lastWritten (due t.pendPeriod at_) t.genPeriod != t.genPeriod

/-- The timeout after a tick (R18). -/
def substTimeout (predicted : Nat) : Nat := min (5 * predicted / 4) 50000000

/-- The interval to a substituted tick after this one (R18, R19). -/
def TickSt.nextSubst (t : TickSt) (afterReal : Bool) : Nat :=
  if afterReal then substTimeout t.predicted else t.realPeriod.getD t.genPeriod

/-- Source, period and prediction at a tick (R11, R18, R19). `real`: an edge of the source in force until now. -/
def State.switchOver (s : State) (real : Bool) (at_ : Nat) : State :=
  let t := s.tick
  let srcNow := t.srcChanges at_
  let perNow := t.periodChanges at_
  let first := t.since == 0
  let measured := s.get Od.PERIOD_NS
  let realPeriod := if real && t.lastReal && !first then some measured else t.realPeriod
  let t := { t with realPeriod := realPeriod, lastReal := real }
  let t := { t.select (lastWritten (due t.pendSrc at_) t.src) with
    genPeriod := lastWritten (due t.pendPeriod at_) t.genPeriod,
    pendSrc := notDue t.pendSrc at_, pendPeriod := notDue t.pendPeriod at_ }
  let t := { t with predicted := if first || srcNow || (perNow && t.src == 2) then t.genPeriod else measured }
  let t := { t with substAfter := t.nextSubst (real || srcNow), lastAt := s.now, since := t.since + 1 }
  let s := { s with tick := t }
  if srcNow then s.endSubst else s

/-- The Governor counts ticks from the first one after TICK_EN was set (R351). -/
def State.governorTick (s : State) : State :=
  let s := s.set Od.GOV_STATE 1
  if s.tick.since ≤ 1 then { s with watch := { s.watch with govTicks := 0 } }
  else { s with watch := { s.watch with govTicks := s.watch.govTicks + 1 } }

/-- TICK_OUT rises (R20, R75). -/
def State.tickOutAtTick (s : State) : State :=
  if s.on Od.TICK_OUT_EN then
    { s with tick := { s.tick with pin := .high, outRise := s.now } }.emit (.tickOut .high)
  else s

/-- A tick of time `at_`, of the source or substituted (R11 to R20, R177, R178, R338, R349, R351, R353). -/
def State.doTick (s : State) (real : Bool) (at_ : Nat) : State :=
  -- the tick that ends: its gathered events, its windows, its period
  let s := s.flushGather
  let s := s.closeWindows (fun _ => true)
  let s := s.measure at_
  let s := s.countTick
  let s := (s.set Od.TICK_TS (at_ - s.tB)).set Od.CUR_BUCKET 0
  -- substitution and switch-over
  let s := if real then s.endSubst else (s.countSubst).holdAtTick true
  let s := s.switchOver real at_
  let s := s.wheelAtTick at_
  let s := s.when (match s.wheel.table with
    | some w => s.tick.predicted < w.tickNs
    | none => false) (·.inc Od.SHORT_TICKS)
  let s := s.governorTick
  let s := s.when s.running (·.set Od.GOV_HOLD 0)
  let s := s.tickOutAtTick
  let s := s.cascadeAtTick
  s.openWindows 0

/-- An edge of a source, taken as a tick, as a runt, or ignored (R14, R17, R18). -/
def State.sourceEdge (s : State) (src at_ : Nat) : State :=
  if !s.alive || !s.on Od.TICK_EN || s.tick.src != src then s
  else if s.tick.since == 0 then
    if at_ ≥ s.tick.enAt + 2500000 then s.doTick true at_ else s
  else if at_ < s.tB + s.get Od.TICK_TS + 2500000 then s.inc Od.RUNT_COUNT
  else s.doTick true at_

/-! ## Commands -/

/-- `TICK_IN_EDGE` (R14, R17, R74): a pulse shorter than 40 ns is a glitch; the edge lies at most 60 ns back. -/
def execTickInEdge (dt high latency : Nat) (s : State) : Res :=
  let s := s.advance dt
  .next (if high < 40 then s else s.sourceEdge 1 (s.now - min latency 60))

/-- The internal generator's period has passed (R14, R19). -/
def State.generatorDue (s : State) : Bool :=
  s.alive && s.on Od.TICK_EN && s.tick.src == 2 &&
    s.now ≥ (if s.tick.since == 0 then s.tick.enAt else s.tick.lastAt) + s.tick.genPeriod

/-- `INTERNAL_TICK` (R10, R14). -/
def execInternalTick (dt : Nat) (s : State) : Res :=
  let s := s.advance dt
  .next (if s.generatorDue then s.doTick true s.now else s)

/-- The source is silent at the end of the timeout or interval (R18). -/
def State.substDue (s : State) : Bool :=
  s.alive && s.on Od.TICK_EN && s.tick.src != 2 && s.tick.since != 0 && s.now ≥ s.tick.lastAt + s.tick.substAfter

/-- `SUBSTITUTED_TICK` (R18). -/
def execSubstitutedTick (dt : Nat) (s : State) : Res :=
  let s := s.advance dt
  .next (if s.substDue then s.doTick false s.now else s)

/-- The next bucket may begin (R11): the tick has 256, timed from its predicted period. -/
def State.bucketDue (s : State) : Bool :=
  s.alive && s.on Od.TICK_EN && s.tick.since != 0 && s.get Od.CUR_BUCKET < 255 &&
    256 * (s.now - s.tick.lastAt) ≥ (s.get Od.CUR_BUCKET + 1) * s.tick.predicted

/-- The next bucket begins: windows that ended overrun their jobs, then windows open (R178, R180). -/
def State.nextBucket (s : State) : State :=
  let b := s.get Od.CUR_BUCKET + 1
  let s := s.set Od.CUR_BUCKET b
  let s := s.closeWindows (fun w => w.lastBucket < b)
  s.openWindows b

/-- `BUCKET_START` (R11, R178). -/
def execBucketStart (dt : Nat) (s : State) : Res :=
  let s := s.advance dt
  .next (if s.bucketDue then s.nextBucket else s)

/-- `TICK_OUT_FALL` (R75). -/
def execTickOutFall (dt : Nat) (s : State) : Res :=
  let s := s.advance dt
  .next (s.when (s.tick.pin == .high && s.now ≥ s.tick.outRise + 4000) (·.driveTickOut .low))

end Sys2Proof.Machine
end

