-- ==== Sys2Proof/Machine/MemSys.lean ====
section
/-! DEFINITION. The memory system's own commands: retraining, translation objects, repartition, retention, refills and
self-refresh (R111, R120 to R124, R130, R131). -/

namespace Sys2Proof.Machine

/-! ## Running jobs -/

/-- An engine job is running. A buffer that a pipe shows is no running job (R111: its layer underruns). -/
def State.jobRunning (s : State) : Bool := s.qs.jobs.any (fun j => j.phase == .started && !j.presented)

/-! ## Translation objects (R120) -/

/-- A write of XLAT_ROOT or XLAT_EN: a changed value discards the client's cached entries. -/
def State.wrXlat (s : State) (k n v : Nat) : State :=
  if s.get k == v then s else (s.set k v).dropCache n

/-- A write of XLAT_INVAL. -/
def State.wrXlatInval (s : State) (n v : Nat) : State := if v == 1 then s.dropCache n else s

/-! ## Repartition (R123, R124) -/

def State.stagedPart (s : State) (i : Nat) : Part :=
  ⟨s.get (Od.PART_KIND i), s.get (Od.PART_FIRST_BANK i), s.get (Od.PART_BANKS i), s.get (Od.PART_OWNER i)⟩

def State.activePart (s : State) (i : Nat) : Part :=
  ⟨s.get (Od.PART_ACT_KIND i), s.get (Od.PART_ACT_FIRST_BANK i), s.get (Od.PART_ACT_BANKS i),
   s.get (Od.PART_ACT_OWNER i)⟩

def Part.used (x : Part) : Bool := x.banks != 0

/-- Two partitions share a bank. -/
def Part.meets (a b : Part) : Bool := a.first < b.first + b.banks && b.first < a.first + a.banks

/-- The checks of R123 over a copied table. -/
def partsOk (l : List Part) : Bool :=
  let u := l.filter Part.used
  u.all (fun x => x.first + x.banks ≤ 32 && x.kind ≤ 5 && (x.owner ≤ 63 || x.owner == 0xFF) &&
      (x.kind != 2 || x.banks ≤ 8)) &&
    noPair Part.meets u && (u.filter (fun x => x.kind == 2)).length ≤ 1 && (u.filter (fun x => x.kind == 4)).length ≤ 1

/-- A BAND partition would change its banks, kind or owner (R124). -/
def State.bandChanges (s : State) : Bool :=
  (List.range 16).any (fun i =>
    let a := s.activePart i
    let b := s.stagedPart i
    ((a.used && a.kind == 3) || (b.used && b.kind == 3)) && a != b)

/-- A write of 0x5917 to REPARTITION (R111, R123, R124). -/
def State.wrRepartition (s : State) (via : Path) : WRes :=
  if s.opRunning .repartition || s.opRunning .memTrain || s.selftesting || s.wheel.table.isSome ||
      ((List.range 4).any s.pipeOn && s.bandChanges) then .no s Ab.BUSY
  else
    let copy := (List.range 16).map s.stagedPart
    let r := WRes.start s .repartition via Od.REPARTITION (fun s => { s with mem := { s.mem with staged := some copy } })
    if r.code == Ab.OK && !partsOk copy then
      let s := { r.st with mem := { r.st.mem with staged := none } }
      ⟨s.finishOp (handleSlot r.handle) Ab.RANGE, Ab.OK, r.handle⟩
    else r

/-- The partition that a bank belongs to in a table. -/
def partOfBank (l : List Part) (b : Nat) : Option (Nat × Part) :=
  (l.zipIdx.find? (fun e => e.1.used && e.1.first ≤ b && b < e.1.first + e.1.banks)).map (fun e => (e.2, e.1))

/-- The copied table becomes active once no job runs (R124). -/
def State.repartitionApply (s : State) : State :=
  match s.mem.staged with
  | none => s
  | some new =>
    if s.jobRunning then s else
    let old := (List.range 16).map s.activePart
    let same := fun (b : Nat) => match partOfBank old b, partOfBank new b with
      | some (i, a), some (j, c) => i == j && a == c
      | none, none => true
      | _, _ => false
    let s := new.zipIdx.foldl (fun (s : State) e => s.sets
      [(Od.PART_ACT_KIND e.2, e.1.kind), (Od.PART_ACT_FIRST_BANK e.2, e.1.first), (Od.PART_ACT_BANKS e.2, e.1.banks),
       (Od.PART_ACT_OWNER e.2, e.1.owner)]) s
    let s := { s with mem := { s.mem.zeroBanks (fun b => !same b) with staged := none } }
    match s.ops.find? (fun o => o.kind == .repartition) with
    | some o => s.finishOp o.slot.val Ab.OK
    | none => s

/-- `REPARTITION_APPLY` (R124). -/
def execRepartitionApply (dt : Nat) (s : State) : Res := .next (s.advance dt).repartitionApply

/-! ## Retention (R122) -/

/-- A bank of a partition without an access for 1 µs enters retention. -/
def State.bankRetain (s : State) (b : Nat) : State :=
  if (partOfBank ((List.range 16).map s.activePart) b).isSome && mgetD s.mem.bankUse b 0 + 1000 ≤ s.now && s.domOn 2
      && !s.mem.retained.contains b
  then { s with mem := { s.mem with retained := b :: s.mem.retained } }
  else s

/-- `BANK_RETENTION_ENTRY` (R122). -/
def execBankRetentionEntry (dt : Nat) (b : Fin 32) (s : State) : Res := .next ((s.advance dt).bankRetain b.val)

/-! ## Refills and self-refresh (R130, R131) -/

/-- A refill of a pipe's FIFO begins; it is a DRAM request. -/
def State.refillStart (s : State) (p : Nat) : State :=
  let s := s.settleFifo p
  let f := s.fifo p
  if s.pipeOn p && s.dramBits p != 0 && !f.refilling && !s.opRunning .memTrain && !(s.pipe p).abandoned &&
      (s.ltr p ≤ s.srThreshold || (!s.on Od.SR_EN && f.fill < fifoCap)) then
    let s := s.touchDram
    { s with mem := { s.mem with fifos := mset s.mem.fifos p { f with refilling := true } } }
  else s

/-- `REFILL_START` (R130). -/
def execRefillStart (dt : Nat) (p : Fin 4) (s : State) : Res := .next ((s.advance dt).refillStart p.val)

/-- The FIFOs of the enabled pipes are brought up to now. -/
def State.settleFifos (s : State) : State :=
  ([0, 1, 2, 3] : List Nat).foldl (fun (s : State) p => if s.pipeOn p then s.settleFifo p else s) s

/-- DRAM enters self-refresh (R131). -/
def State.selfRefreshEntry (s : State) : State :=
  let s := s.settleFifos
  if s.on Od.SR_EN && s.mem.refresh == .awake && s.domOn 2 && !s.opRunning .memTrain &&
      s.mem.lastReq + s.get Od.SR_IDLE_NS ≤ s.now &&
      ([0, 1, 2, 3] : List Nat).all (fun p => !s.pipeOn p || (s.srThreshold ≤ s.ltr p && !(s.fifo p).refilling))
  then { s.inc Od.SR_ENTRIES with mem := { s.mem with refresh := .asleep s.now } }
  else s

/-- `SELF_REFRESH_ENTRY` (R131). -/
def execSelfRefreshEntry (dt : Nat) (s : State) : Res := .next (s.advance dt).selfRefreshEntry

/-- DRAM leaves self-refresh when a pipe's tolerance falls; a request wakes it by itself (R131). -/
def State.selfRefreshExit (s : State) : State :=
  if ([0, 1, 2, 3] : List Nat).any (fun p => s.pipeOn p && s.ltr p ≤ s.srThreshold) then s.wakeDram else s

/-- `SELF_REFRESH_EXIT` (R131). -/
def execSelfRefreshExit (dt : Nat) (s : State) : Res := .next (s.advance dt).selfRefreshExit

/-- `SR_TIME_NS` while DRAM sleeps (R132). -/
def State.srTime (s : State) : Nat :=
  match s.mem.refresh with
  | .asleep t => s.get Od.SR_TIME_NS + (s.now - t)
  | .awake => s.get Od.SR_TIME_NS

end Sys2Proof.Machine
end

