-- ==== Sys2Proof/Machine/Queue.lean ====
section
/-! DEFINITION. Queues: enabling, doorbells, job queries, completion, the completion ring, and BAR0 flag writes
(R134 to R157). -/

namespace Sys2Proof.Machine

/-! ## Queue objects (R135, R136) -/

/-- A write of Q_ENABLE. -/
def State.wrQEnable (s : State) (q v : Nat) : WRes :=
  if s.get (Od.Q_ENABLE q) == v then .ok s
  else if v == 1 then
    if !s.on (Od.CL_CR_EN (s.get (Od.Q_OWNER q))) then .no s Ab.BUSY
    else .ok (s.sets [(Od.Q_ENABLE q, 1), (Od.Q_TAIL q, 0), (Od.Q_STARTED q, 0), (Od.Q_DONE q, 0)])
  else if s.get (Od.Q_TAIL q) != s.get (Od.Q_DONE q) then .no s Ab.BUSY
  else .ok (s.set (Od.Q_ENABLE q) 0)

/-- Writes of Q_OWNER, Q_RING_BASE and Q_RING_SLOTS. -/
def State.wrQFixed (s : State) (q k v : Nat) : WRes :=
  if s.get k == v then .ok s
  else if s.on (Od.Q_ENABLE q) then .no s Ab.BUSY
  else .ok (s.set k v)

/-- A job waits under R143: its wait is not satisfied, or it is SERIAL behind an earlier job. -/
def State.lineWaits (s : State) (j : Job) : Bool :=
  let b := (s.readSlot j).2.1.slot
  (slotWaitEn b && s.waitOn (slotWaitFence b) (slotWaitId b) (slotWaitValue b) == .waiting) ||
    (slotSerial b && ((s.jobsOf j.id.q.val).head?.map (·.id)) != some j.id)

/-- `Q_STATE` (R135): disabled, then stalled, then by the jobs of the queue. -/
def State.queueState (s : State) (q : Nat) : Nat :=
  if !s.on (Od.Q_ENABLE q) then 0
  else if s.stalledClient (s.get (Od.Q_OWNER q)) then 4
  else if (s.jobsOf q).any (fun j => j.phase == .started) then 2
  else if (s.nextInLine q).any s.lineWaits then 3
  else 1

/-! ## Doorbells (R141, R145, R146) -/

/-- A submission becomes a job. -/
def State.submit (s : State) (q n : Nat) : State :=
  let client := s.get (Od.Q_OWNER q)
  let slot := n % s.ringSlots q
  let k := slotKey q slot
  let g := (mgetD s.qs.gens k 0 + 1) % 256
  let h := jobHandle client q g slot
  let j : Job :=
    { id := ⟨Fin.ofNat 128 q, BitVec.ofNat 16 n⟩, handle := h, owner := Fin.ofNat 64 client, slot := [], checked := false,
      phase := .queued, inList := false, taken := 0, done := 0, desc := [], live := (0, 0), status := 0, flags := 0, detail := [], window := none,
      unit := none, context := .live, startAt := 0, startTick := 0, cycles := 0, blocked := false, poisons := [], epoch := none,
      deadline := none }
  let u : SlotUse := { n := n % 2 ^ 16, client := client, done := none }
  { s with qs := { s.qs with jobs := s.qs.jobs ++ [j], gens := mput 0 s.qs.gens k g, uses := mset s.qs.uses k u } }.set
    (Od.Q_LAST_HANDLE q) h

/-- Ring a queue with a new tail on behalf of a client: the new state and the abort code of R141. -/
def State.ring (s : State) (client q tail : Nat) : State × Nat :=
  let t := tail % 2 ^ 16
  let old := s.get (Od.Q_TAIL q)
  if s.selftesting then (s, Ab.BUSY)
  else if s.get (Od.Q_OWNER q) != client then (s, Ab.AUTH)
  else if !s.on (Od.Q_ENABLE q) then (s, Ab.RANGE)
  else if s.engineCode (engineOf q) != Ab.OK then (s, s.engineCode (engineOf q))
  else if subMod 16 t old > s.ringSlots q || subMod 16 t (s.get (Od.Q_DONE q)) > s.ringSlots q then (s, Ab.RANGE)
  else
    let s := (rangeFrom old (subMod 16 t old)).foldl (fun (s : State) n => s.submit q (n % 2 ^ 16)) s
    (s.set (Od.Q_TAIL q) t, Ab.OK)

/-- A refused access through BAR0 (R48, R141, R156). -/
def State.winErr (s : State) (fn index code : Nat) : State :=
  let w := s.win fn
  s.setWin fn { w with lastAbort := index * 2 ^ 16 + code, errCount := min 0xFFFFFFFF (w.errCount + 1) }

/-- A write to a doorbell by a function. -/
def State.doorbell (s : State) (fn q val : Nat) : State :=
  if !s.boot.pcieUp then s else
  match s.ring fn q val with
  | (s, code) => if code == Ab.OK then s else (s.inc (Od.Q_DB_ERR q)).winErr fn (0x4000 + q) code

/-- `DOORBELL` (R141). -/
def execDoorbell (dt : Nat) (fn : Fin 64) (q : Fin 128) (val : BitVec 32) (s : State) : Res :=
  .next ((s.advance dt).doorbell fn.val q.val val.toNat)

/-- `JOB_QUERY` (R147). -/
def execJobQuery (dt : Nat) (fn : Fin 64) (handle : BitVec 32) (s : State) : Res :=
  let s := s.advance dt
  .next (if s.boot.pcieUp then s.setWin fn.val { s.win fn.val with query := handle.toNat } else s)

/-- `JOB_STATE` of the queried handle (R147). -/
def State.jobState (s : State) (fn : Nat) : Nat :=
  let h := (s.win fn).query
  let q := bitsOf h 19 7
  let slot := bitsOf h 0 11
  let g := mgetD s.qs.gens (slotKey q slot) 0
  if slot ≥ s.ringSlots q then Ab.RANGE
  else if fn != 0 && bitsOf h 26 6 != fn then Ab.AUTH
  else if bitsOf h 11 8 != g then Ab.HANDLE_STALE
  else match mget s.qs.uses (slotKey q slot) with
    | none => 3 * 2 ^ 16
    | some u => match u.done with
      | some st => 2 * 2 ^ 16 + st * 2 ^ 20
      | none =>
        if (s.jobsOf q).any (fun j => j.id.n.toNat == u.n && j.phase != .queued) then 1 * 2 ^ 16 else 0

/-! ## Completion (R143, R150 to R152) -/

/-- The first outstanding job of a queue completes, where it has finished. -/
def State.completeHead (s : State) (q : Nat) : State :=
  match (s.jobsOf q).head? with
  | some j => if s.recordDue j then s.complete j false else s
  | none => s

/-- `JOB_COMPLETE` (R150). -/
def execJobComplete (dt : Nat) (q : Fin 128) (s : State) : Res := .next ((s.advance dt).completeHead q.val)

/-- `HELD_RECORD_WRITE` (R152). -/
def execHeldRecordWrite (dt : Nat) (n : Fin 64) (s : State) : Res := .next ((s.advance dt).writeHeld n.val)

/-- A write of CL_CR_HEAD (R151). -/
def State.wrCrHead (s : State) (n v : Nat) : WRes :=
  let h := s.get (Od.CL_CR_HEAD n)
  if subMod 32 v h ≤ subMod 32 (s.get (Od.CL_CR_TAIL n)) h then .ok (s.set (Od.CL_CR_HEAD n) v) else .no s Ab.RANGE

/-- A queue owned by client n is enabled. -/
def State.ownsEnabled (s : State) (n : Nat) : Bool :=
  (List.range 128).any (fun q => s.get (Od.Q_OWNER q) == n && s.on (Od.Q_ENABLE q))

/-- A write of CL_CR_EN (R151, R157). -/
def State.wrCrEn (s : State) (n v : Nat) : WRes :=
  if s.get (Od.CL_CR_EN n) == v then .ok s
  else if v == 1 then .ok (s.sets [(Od.CL_CR_EN n, 1), (Od.CL_CR_TAIL n, 0), (Od.CL_CR_HEAD n, 0)])
  else if s.ownsEnabled n then .no s Ab.BUSY
  else .ok (s.set (Od.CL_CR_EN n) 0)

/-- Writes of CL_CR_BASE and CL_CR_SLOTS (R157). -/
def State.wrCrFixed (s : State) (n k v : Nat) : WRes :=
  if s.on (Od.CL_CR_EN n) then .no s Ab.BUSY else .ok (s.set k v)

/-! ## Flags and fences through BAR0 (R156) -/

/-- A 32-bit write to the lower or upper word of a flag or fence. -/
def State.barFlag (s : State) (fn : Nat) (fence : Bool) (id : Nat) (upper : Bool) (v : Nat) : State :=
  if !s.boot.pcieUp || (!fence && id ≥ 256) then s
  else if !s.mayName fn fence id then s.winErr fn 0 Ab.AUTH
  else if upper then s
  else s.setFlag fence id v

/-- `FLAG_WRITE` (R156). -/
def execFlagWrite (dt : Nat) (fn : Fin 64) (fence : Bool) (id : Fin 1024) (upper : Bool) (val : BitVec 32) (s : State) :
    Res :=
  .next ((s.advance dt).barFlag fn.val fence id.val upper val.toNat)

end Sys2Proof.Machine
end

