-- ==== Sys2Proof/Machine/Copy.lean ====
section
/-! DEFINITION. The Copy Engine: COPY, COPY_2D and FILL (R158, R159). -/

namespace Sys2Proof.Machine

/-- What a command does when it reads and writes memory: the state, and the fault that stopped it. -/
abbrev MRes := State × Option MemFault

/-- Move one 256-byte block in stored form: content and metadata code (R159 RAW). -/
def State.rawBlock (s : State) (cl src dst : Nat) : MRes :=
  match s.resolve cl src false with
  | (s, none) => (s.xlatFault cl src, some ⟨4, src⟩)
  | (s, some (p, _)) =>
    let code := s.code p
    let (s, data, bad) := s.rdChunk p true 256
    if bad then (s, some ⟨5, 0⟩) else
    match s.resolve cl dst true with
    | (s, none) => (s.xlatFault cl dst, some ⟨4, dst⟩)
    | (s, some (q, _)) => ((s.wrChunk q true data none).setCode q code, none)

/-- Copy a range in ascending address order, 256 bytes at a time. -/
def State.copyRange (s : State) (cl src dst len : Nat) (raw : Bool) (clear : Option Byte) : MRes :=
  (List.range (ceilDiv len 256)).foldl (fun (x : MRes) i =>
    if x.2.isSome then x else
    let o := 256 * i
    if raw then x.1.rawBlock cl (src + o) (dst + o)
    else
      match x.1.rd cl (src + o) (min 256 (len - o)) with
      | (s, _, some f) => (s, some f)
      | (s, b, none) => s.wrClear cl (dst + o) b clear) (s, none)

/-- The checks of R159 before any byte is written: translation of every page, the mode's rule, no overlap. `mult` says
that every quantity that RAW asks to be a multiple of 256 is one. -/
def State.copyChecks (s : State) (cl src sn dst dn mode : Nat) (mult : Bool) : MRes :=
  match s.probe cl src sn false with
  | (s, some va, _) => (s.xlatFault cl va, some ⟨4, va⟩)
  | (s, none, cs) =>
    match s.probe cl dst dn true with
    | (s, some va, _) => (s.xlatFault cl va, some ⟨4, va⟩)
    | (s, none, ds) =>
      let ok := if mode == 1 then cs.all id && ds.all id && mult
        else if mode == 2 then cs.all (!·) && ds.all id
        else if mode == 3 then cs.all id && ds.all (!·)
        else true
      if !ok then (s, some ⟨6, src⟩)
      else if src < dst + dn && dst < src + sn then (s, some ⟨6, dst⟩)
      else (s, none)

/-- The clear byte of a command (R159). -/
def clearOf (en byte : Nat) : Option Byte := if en % 2 == 1 then some (BitVec.ofNat 8 byte) else none

/-- End a command with what its memory accesses gave. -/
def State.endMem (id : JobId) (r : MRes) : State :=
  let s := r.1
  match r.2 with
  | none => s.endCmd id St.OK [] 0
  | some f => s.faultCmdMem id f 0 0

/-! ## Runs of a command between pre-emption points (R184) -/

/-- Points passed when a run ends: `cut` more of them, or to the command's end. -/
def runEnd (cut : Option Nat) (done total : Nat) : Nat :=
  match cut with
  | none => total
  | some k => min total (done + k)

/-- The Copy Engine's pre-emption points: each 64 KiB moved. -/
def copyPoint : Nat := 0x10000

/-- A job's command stands at its `n`-th pre-emption point, with some bytes live in it. -/
def State.standAt (s : State) (id : JobId) (n : Nat) (live : Nat × Nat) : State :=
  match s.job id with
  | some j => s.putJob { j with done := n, live := live }
  | none => s

/-- A run of a command that moves memory has ended: at a fault, at the command's end, or at a pre-emption point. -/
def State.endRun (id : JobId) (n total : Nat) (r : MRes) : State :=
  if r.2.isNone && n < total then r.1.standAt id n (0, 0) else State.endMem id r

/-- First non-zero reserved part of a payload, by offset and length. -/
def reservedAt (c : List Byte) (l : List (Nat × Nat)) : Option Nat :=
  (l.find? (fun e => !zeros c e.1 e.2)).map (·.1)

/-- Copy the bytes of numbers `a` up to `b`, exclusive, of h rows of w bytes between two pitches, row after row. -/
def State.copySpan (s : State) (cl src sp dst dp w : Nat) (raw : Bool) (clear : Option Byte) (a b : Nat) : MRes :=
  (rangeFrom (a / w) (ceilDiv b w - a / w)).foldl (fun (x : MRes) y =>
    if x.2.isSome then x else
    let lo := max a (y * w) - y * w
    let hi := min b (y * w + w) - y * w
    x.1.copyRange cl (src + y * sp + lo) (dst + y * dp + lo) (hi - lo) raw clear) (s, none)

/-- What COPY and COPY_2D ask for: h rows of w bytes from a place at a pitch to another (R158). -/
structure CopyArgs where
  src : Nat
  dst : Nat
  w : Nat
  h : Nat
  sp : Nat
  dp : Nat
  mode : Nat
  clear : Option Byte
  /-- every quantity that RAW asks to be a multiple of 256 is one -/
  mult : Bool

def copyArgs (c : List Byte) : CopyArgs :=
  let src := fld c 24 8
  let dst := fld c 32 8
  let len := fld c 40 4
  { src := src, dst := dst, w := len, h := if len == 0 then 0 else 1, sp := 0, dp := 0, mode := fld c 44 1,
    clear := clearOf (fld c 46 1) (fld c 45 1), mult := src % 256 == 0 && dst % 256 == 0 && len % 256 == 0 }

def copy2dArgs (c : List Byte) : CopyArgs :=
  let src := fld c 24 8
  let dst := fld c 32 8
  let w := fld c 40 4
  let sp := fld c 48 4
  let dp := fld c 52 4
  { src := src, dst := dst, w := w, h := fld c 44 4, sp := sp, dp := dp, mode := fld c 56 1,
    clear := clearOf (fld c 58 1) (fld c 57 1),
    mult := src % 256 == 0 && dst % 256 == 0 && w % 256 == 0 && sp % 256 == 0 && dp % 256 == 0 }

/-- A run of a copy: the checks before any byte is written, then the bytes up to a pre-emption point or the end (R159, R184). -/
def State.copyRun (s : State) (j : Job) (k : CopyArgs) (modeOff : Nat) (cut : Option Nat) : State :=
  if k.w == 0 || k.h == 0 then s.endCmd j.id St.OK [] 0
  else if k.mode > 3 then s.faultCmd j.id 6 0 modeOff 0
  else
    let total := ceilDiv (k.w * k.h) copyPoint
    let n := runEnd cut j.done total
    match (if j.done != 0 then (s, none) else
      s.copyChecks j.client k.src ((k.h - 1) * k.sp + k.w) k.dst ((k.h - 1) * k.dp + k.w) k.mode k.mult) with
    | (s, some f) => s.faultCmdMem j.id f 0 0
    | (s, none) =>
      State.endRun j.id n total (s.copySpan j.client k.src k.sp k.dst k.dp k.w (k.mode == 1) k.clear
        (copyPoint * j.done) (min (k.w * k.h) (copyPoint * n)))

/-- COPY (R158, R159). -/
def State.copyCmd (cut : Option Nat) (s : State) (j : Job) (c : List Byte) : State :=
  match (if fld c 46 1 > 1 then some 46 else reservedAt c [(47, 17)]) with
  | some off => s.faultCmd j.id 2 0 off 0
  | none => s.copyRun j (copyArgs c) 44 cut

/-- COPY_2D (R158, R159). -/
def State.copy2dCmd (cut : Option Nat) (s : State) (j : Job) (c : List Byte) : State :=
  match (if fld c 58 1 > 1 then some 58 else reservedAt c [(59, 5)]) with
  | some off => s.faultCmd j.id 2 0 off 0
  | none => s.copyRun j (copy2dArgs c) 56 cut

/-- Byte i of a repeated 32-bit pattern (R158). -/
def patternByte (pat i : Nat) : Byte := BitVec.ofNat 8 (pat / 256 ^ (i % 4))

/-- Write bytes `a` up to `b`, exclusive, of a repeated pattern over a range, 256 bytes at a time. -/
def State.fillSpan (s : State) (cl dst pat : Nat) (clear : Option Byte) (a b : Nat) : MRes :=
  (List.range (ceilDiv (b - a) 256)).foldl (fun (x : MRes) i =>
    if x.2.isSome then x else
    let o := a + 256 * i
    x.1.wrClear cl (dst + o) ((rangeFrom o (min 256 (b - o))).map (patternByte pat)) clear) (s, none)

/-- FILL (R158, R159). -/
def State.fillCmd (cut : Option Nat) (s : State) (j : Job) (c : List Byte) : State :=
  let dst := fld c 24 8
  let len := fld c 32 4
  let total := ceilDiv len copyPoint
  let n := runEnd cut j.done total
  match (if fld c 41 1 > 1 then some 41 else reservedAt c [(42, 22)]) with
  | some off => s.faultCmd j.id 2 0 off 0
  | none =>
    if len == 0 then s.endCmd j.id St.OK [] 0 else
    match (if j.done != 0 then (s, none, []) else s.probe j.client dst len true) with
    | (s, some va, _) => (s.xlatFault j.client va).faultCmdMem j.id ⟨4, va⟩ 0 0
    | (s, none, _) => State.endRun j.id n total
        (s.fillSpan j.client dst (fld c 36 4) (clearOf (fld c 41 1) (fld c 40 1)) (copyPoint * j.done)
          (min len (copyPoint * n)))

/-- Take a command of a job on a queue of an engine (R108 code) and run it. -/
def State.runCmd (s : State) (id : JobId) (eng op : Nat) (f : State → Job → List Byte → State) : State :=
  if engineOf id.q.val != eng then s else
  match s.takeCmd id op with
  | .none_ s => s
  | .ended s => s
  | .cmd s j c => f s j c

/-- `COPY` (R158). -/
def execCopy (dt : Nat) (j : JobId) (u : Course) (s : State) : Res :=
  .next (((s.advance dt).upsets u.upsets).runCmd j 5 0x10 (State.copyCmd u.cut))

/-- `COPY_2D` (R158). -/
def execCopy2d (dt : Nat) (j : JobId) (u : Course) (s : State) : Res :=
  .next (((s.advance dt).upsets u.upsets).runCmd j 5 0x11 (State.copy2dCmd u.cut))

/-- `FILL` (R158). -/
def execFill (dt : Nat) (j : JobId) (u : Course) (s : State) : Res :=
  .next (((s.advance dt).upsets u.upsets).runCmd j 5 0x12 (State.fillCmd u.cut))

end Sys2Proof.Machine
end

