-- ==== Sys2Proof/Machine/Ingest.lean ====
section
/-! DEFINITION. Ingest streams: CSI-2 reception, host frames, buffers, records and publication (R160 to R168). -/

namespace Sys2Proof.Machine

/-! ## Formats and buffers (R163, R249) -/

/-- Bytes per pixel of the surface formats 0x01 to 0x08 (R249). -/
def surfaceBytes (fmt : Nat) : Nat :=
  if fmt == 1 then 1 else if fmt == 2 then 2 else if fmt == 8 then 8 else if 3 ≤ fmt && fmt ≤ 7 then 4 else 0

/-- Width and height of a 256-byte block of pixels of a size (R126). -/
def blockDims (bytes : Nat) : Nat × Nat :=
  if bytes == 1 then (16, 16) else if bytes == 2 then (16, 8) else if bytes == 4 then (8, 8) else (8, 4)

/-- A format and packing that a kind accepts. -/
def streamFmtOk (kind fmt pack : Nat) : Bool :=
  fmt == 0x2B || fmt == 0x2C || (fmt == 0x1E && pack == 0) || (kind != 1 && 1 ≤ fmt && fmt ≤ 8)

/-- Bytes of one row of `w` pixels as stored in row layout. -/
def rowBytesOf (fmt pack w : Nat) : Nat :=
  if fmt == 0x2B && pack == 0 then ceilDiv (5 * w) 4
  else if fmt == 0x2C && pack == 0 then ceilDiv (3 * w) 2
  else if fmt == 0x2B || fmt == 0x2C || fmt == 0x1E then 2 * w
  else surfaceBytes fmt * w

/-- The format lies in blocks. -/
def streamBlocks (fmt pack : Nat) : Bool := 1 ≤ fmt && fmt ≤ 8 && pack == 1

def State.streamRow (s : State) (i : Nat) : Nat :=
  rowBytesOf (s.get (Od.IS_FMT i)) (s.get (Od.IS_PACK i)) (s.get (Od.IS_WIDTH i))

/-- Bytes of a frame (R163). -/
def State.streamBytes (s : State) (i : Nat) : Nat :=
  let fmt := s.get (Od.IS_FMT i)
  if streamBlocks fmt (s.get (Od.IS_PACK i)) then
    s.get (Od.IS_PITCH i) * 256 * ceilDiv (s.get (Od.IS_HEIGHT i)) (blockDims (surfaceBytes fmt)).2
  else s.get (Od.IS_PITCH i) * s.get (Od.IS_HEIGHT i)

/-- The pitch takes a whole row (R163, R167). -/
def State.pitchOk (s : State) (i : Nat) : Bool :=
  let fmt := s.get (Od.IS_FMT i)
  let p := s.get (Od.IS_PITCH i)
  if streamBlocks fmt (s.get (Od.IS_PACK i)) then
    ceilDiv (s.get (Od.IS_WIDTH i)) (blockDims (surfaceBytes fmt)).1 ≤ p
  else p % 64 == 0 && s.streamRow i ≤ p

/-- Address of the buffer of the stream's present frame. -/
def State.streamBuf (s : State) (i : Nat) : Nat :=
  s.get (Od.IS_BUF_VA i) + (s.stream i).f % s.get (Od.IS_NBUF i) * s.get (Od.IS_BUF_STRIDE i)

/-- A stream may name a flag of its owner, or none. -/
def State.streamFlagOk (s : State) (i k : Nat) : Bool :=
  s.get k == 0xFFFF || s.mayName (s.get (Od.IS_OWNER i)) false (s.get k)

/-- Another enabled CSI-2 stream takes the same port and virtual channel (R160). -/
def State.streamClash (s : State) (i : Nat) : Bool :=
  s.get (Od.IS_KIND i) == 1 && (List.range 16).any (fun k => k != i && s.on (Od.IS_EN k) && s.get (Od.IS_KIND k) == 1 &&
    s.get (Od.IS_PORT k) == s.get (Od.IS_PORT i) && s.get (Od.IS_VC k) == s.get (Od.IS_VC i))

/-- A write of IS_EN (R160, R164, R167). -/
def State.wrIsEn (s : State) (i v : Nat) : WRes :=
  if v == 0 then
    .ok ((s.set (Od.IS_EN i) 0).putStream i { s.stream i with frame := none, dropping := false })
  else
    let kind := s.get (Od.IS_KIND i)
    if kind == 0 || !streamFmtOk kind (s.get (Od.IS_FMT i)) (s.get (Od.IS_PACK i)) || !s.pitchOk i ||
        (kind == 1 && !s.on (Od.CSI_EN (s.get (Od.IS_PORT i)))) then .no s Ab.RANGE
    else if s.streamClash i then .no s Ab.BUSY
    else if !s.streamFlagOk i (Od.IS_FLAG i) || !s.streamFlagOk i (Od.IS_REL_FLAG i) then .no s Ab.AUTH
    else .ok ((s.sets [(Od.IS_EN i, 1), (Od.IS_FRAMES i, 0),
        (Od.IS_BUF_STRIDE i, ceilDiv (s.streamBytes i) 65536 * 65536)]).putStream i Reset.ingest)

/-- A write of CSI_EN: the receiver goes to its stop state, or off (R168). -/
def State.wrCsiEn (s : State) (p v : Nat) : State :=
  if s.get (Od.CSI_EN p) == v then s else (s.set (Od.CSI_EN p) v).set (Od.CSI_STATE p) v

/-- A write of CSI_LANES (R168). -/
def State.wrCsiLanes (s : State) (p v : Nat) : WRes :=
  if s.on (Od.CSI_EN p) then .no s Ab.BUSY else .ok (s.set (Od.CSI_LANES p) v)

/-! ## Publication (R164, R165) -/

/-- The frame record. -/
def State.frameRecord (s : State) (i : Nat) (fr : OpenFrame) (pts : Nat) : List Byte :=
  let bits := (if fr.fault then 8 else 0) + (if fr.crc then 4 else 0) + (if fr.long then 2 else 0) +
    (if fr.short then 1 else 0)
  toLe 4 (s.stream i).f ++ toLe 1 bits ++ toLe 1 i ++ toLe 2 fr.rows ++ toLe 8 fr.ts ++ toLe 4 fr.tick ++ zeroBytes 4 ++
    toLe 8 pts

/-- A frame that has closed is published. -/
def State.publish (s : State) (i : Nat) (fr : OpenFrame) (pts : Nat) : State :=
  let x := s.stream i
  let s := (s.wr (s.get (Od.IS_OWNER i)) (s.get (Od.IS_REC_VA i) + 32 * (x.f % s.get (Od.IS_NBUF i)))
    (s.frameRecord i fr pts)).1
  let flag := s.get (Od.IS_FLAG i)
  let s := s.when (flag != 0xFFFF) (·.setFlag false flag (x.f + 1))
  let s := s.set (Od.IS_FRAMES i) (s.get (Od.IS_FRAMES i) + 1)
  let s := s.when (fr.fault || fr.crc || fr.long || fr.short) (·.inc (Od.IS_BAD i))
  s.putStream i { x with f := x.f + 1, frame := none }

/-! ## CSI-2 (R161, R162) -/

/-- The enabled CSI-2 stream of a port and virtual channel. -/
def State.csiStream (s : State) (port vc : Nat) : Option Nat :=
  (List.range 16).find? (fun i => s.on (Od.IS_EN i) && s.get (Od.IS_KIND i) == 1 && s.get (Od.IS_PORT i) == port &&
    s.get (Od.IS_VC i) == vc)

/-- The receiver of a port runs. -/
def State.csiOn (s : State) (port : Nat) : Bool := s.alive && s.domOn 2 && s.on (Od.CSI_EN port)

/-- The header's error check: false when the packet is discarded. -/
def State.csiHeader (s : State) (port : Nat) (e : HeaderEcc) : State × Bool :=
  match e with
  | .good => (s, true)
  | .corrected => (s.inc (Od.CSI_ECC_CORR port), true)
  | .uncorrectable => (s.inc (Od.CSI_ECC_UNCORR port), false)

/-- An open frame is short of rows when it closes. -/
def State.closeFrame (s : State) (i : Nat) (fr : OpenFrame) (early : Bool) : State :=
  s.publish i { fr with short := fr.short || early || fr.row < s.get (Od.IS_HEIGHT i) } 0

/-- A short packet of another kind, by its data type: Line Start (0x02), Line End (0x03) or a generic one. -/
def otherShort (p : CsiHeader) : Bool := 2 ≤ p.dtype.toNat && p.dtype.toNat ≤ 0xF

/-- Frame Start. Line Start and Line End are accepted and ignored, and so are other short packets; a header
counts its correction whatever the packet (R161, R162). A packet on a virtual channel that no enabled stream names is
discarded and counted (R168). -/
def State.frameStartPkt (s : State) (port : Nat) (p : CsiHeader) : State :=
  if !s.csiOn port then s else
  match s.csiHeader port p.ecc with
  | (s, false) => s
  | (s, true) =>
    if otherShort p then s else
    match s.csiStream port p.vc.val with
    | none => s.inc (Od.CSI_DT_DISCARD port)
    | some i =>
      let s := match (s.stream i).frame with
        | some fr => s.closeFrame i fr true
        | none => s
      if s.bufFree i then
        let fr : OpenFrame := { row := 0, rows := 0, ts := s.ts, tick := s.get Od.TICK_COUNT % 2 ^ 32, short := false,
                                long := false, crc := false, fault := false }
        s.putStream i { s.stream i with dropping := false, frame := some fr }
      else (s.inc (Od.IS_DROPPED i)).putStream i { s.stream i with dropping := true }

/-- CSI-2 RAW10: four pixels of 5 bytes, the low bits in the fifth. -/
def raw10 : List Byte → List Nat
  | a :: b :: c :: d :: e :: r =>
    let l := e.toNat
    (a.toNat * 4 + l % 4) :: (b.toNat * 4 + l / 4 % 4) :: (c.toNat * 4 + l / 16 % 4) :: (d.toNat * 4 + l / 64) :: raw10 r
  | _ => []

/-- CSI-2 RAW12: two pixels of 3 bytes, the low bits in the third. -/
def raw12 : List Byte → List Nat
  | a :: b :: c :: r => (a.toNat * 16 + c.toNat % 16) :: (b.toNat * 16 + c.toNat / 16) :: raw12 r
  | _ => []

/-- A received row as stored, and its length in pixels. -/
def storeRow (fmt pack : Nat) (b : List Byte) : List Byte × Nat :=
  if fmt == 0x2B then
    if pack == 1 then let l := raw10 b; (l.flatMap (toLe 2), l.length) else (b, b.length * 4 / 5)
  else if fmt == 0x2C then
    if pack == 1 then let l := raw12 b; (l.flatMap (toLe 2), l.length) else (b, b.length * 2 / 3)
  else (b, b.length / 2)

/-- Write a range piece by piece: a piece that faults is dropped (R163). -/
def State.wrThrough (s : State) (cl va : Nat) (data : List Byte) : State × Bool :=
  (chunksOf va data.length).foldl (fun (x : State × Bool) ch =>
    match x.1.wr cl (va + ch.1) (slice data ch.1 ch.2) with
    | (s, none) => (s, x.2)
    | (s, some _) => (s, true)) (s, false)

/-- The CRC-16 of a CSI-2 payload: polynomial x^16 + x^12 + x^5 + 1, reflected, initial value 0xFFFF. -/
def crc16 (l : List Byte) : Nat :=
  l.foldl (fun c b => (List.range 8).foldl (fun c _ => if c % 2 == 1 then c / 2 ^^^ 0x8408 else c / 2) (c ^^^ b.toNat)) 0xFFFF

/-- A long packet delivers the next row. -/
def State.longPkt (s : State) (port : Nat) (p : CsiHeader) (payload : List Byte) (crc : Nat) : State :=
  if !s.csiOn port then s else
  match s.csiHeader port p.ecc with
  | (s, false) => s
  | (s, true) =>
    let dt := p.dtype.toNat
    if dt != 0x2B && dt != 0x2C && dt != 0x1E then s.inc (Od.CSI_DT_DISCARD port) else
    match s.csiStream port p.vc.val with
    | none => s.inc (Od.CSI_DT_DISCARD port)
    | some i =>
      -- R162, R168: a payload's failed CRC-16 counts, whether or not a frame is open
      let bad := crc16 payload != crc
      let s := s.when bad (·.inc (Od.CSI_CRC_ERR port))
      match (s.stream i).frame with
      | none => s
      | some fr =>
        if dt != s.get (Od.IS_FMT i) then s else
        let fr := { fr with crc := fr.crc || bad }
        let x := s.stream i
        if fr.row ≥ s.get (Od.IS_HEIGHT i) then
          s.putStream i { x with frame := some { fr with long := true } }
        else
          let w := s.get (Od.IS_WIDTH i)
          let st := storeRow dt (s.get (Od.IS_PACK i)) payload
          let r := s.wrThrough (s.get (Od.IS_OWNER i)) (s.streamBuf i + fr.row * s.get (Od.IS_PITCH i))
            (padTo (s.streamRow i) st.1)
          let fr := { fr with row := fr.row + 1, rows := if r.2 then fr.rows else fr.rows + 1,
                              long := fr.long || st.2 > w, short := fr.short || st.2 < w, fault := fr.fault || r.2 }
          r.1.putStream i { x with frame := some fr }

/-- Frame End. -/
def State.frameEndPkt (s : State) (port : Nat) (p : CsiHeader) : State :=
  if !s.csiOn port then s else
  match s.csiHeader port p.ecc with
  | (s, false) => s
  | (s, true) =>
    if otherShort p then s else
    match s.csiStream port p.vc.val with
    | none => s.inc (Od.CSI_DT_DISCARD port)
    | some i =>
      match (s.stream i).frame with
      | some fr => s.closeFrame i fr false
      | none => s.putStream i { s.stream i with dropping := false }

/-- What the receiver finds on its lanes (R168). -/
def State.csiLanes (s : State) (port : Nat) (st : CsiLanes) : State :=
  if !s.csiOn port then s else
  s.set (Od.CSI_STATE port) (match st with
    | .stop => 1
    | .receiving => 2
    | .error => 3)

/-! ## INGEST_PUT (R166) -/

/-- Rows, or block rows, of a host frame: source pitch in bytes, destination pitch, bytes moved, and their number. -/
def State.putRows (s : State) (i srcPitch : Nat) : Nat × Nat × Nat × Nat :=
  let fmt := s.get (Od.IS_FMT i)
  let p := s.get (Od.IS_PITCH i)
  if streamBlocks fmt (s.get (Od.IS_PACK i)) then
    let d := blockDims (surfaceBytes fmt)
    (256 * srcPitch, 256 * p, 256 * ceilDiv (s.get (Od.IS_WIDTH i)) d.1, ceilDiv (s.get (Od.IS_HEIGHT i)) d.2)
  else (srcPitch, p, s.streamRow i, s.get (Od.IS_HEIGHT i))

/-- An INGEST_PUT in a list starts now. -/
def State.setPutStart (s : State) (id : JobId) : State :=
  match s.job id with
  | some j => s.putJob { j with startAt := s.now, startTick := s.get Od.TICK_COUNT }
  | none => s

/-- Copy bytes `a` up to `b`, exclusive, of rows of n bytes between two pitches, row after row. -/
def State.moveSpan (s : State) (cl src sp dst dp n a b : Nat) : MRes :=
  (rangeFrom (a / n) (ceilDiv b n - a / n)).foldl (fun (x : MRes) y =>
    if x.2.isSome then x else
    let lo := max a (y * n) - y * n
    let hi := min b (y * n + n) - y * n
    match x.1.rd cl (src + y * sp + lo) (hi - lo) with
    | (s, _, some f) => (s, some f)
    | (s, b, none) => s.wr cl (dst + y * dp + lo) b) (s, none)

/-- Copy the frame, and publish it once all of it is there. -/
def State.ingestPut (cut : Option Nat) (s : State) (j : Job) (c : List Byte) : State :=
  let i := fld c 24 1
  if i > 15 then s.faultCmd j.id 2 0 24 0 else
  let first := j.inList && j.done == 0
  match (if first then s.ingestBad j.client c else none) with
  | some off => s.faultCmd j.id 2 0 off 0
  | none =>
    if first && (!s.bufFree i || s.putRunning i j.id) then s else
    let (sp, dp, n, rows) := s.putRows i (fld c 40 4)
    let f := (s.stream i).f
    let total := ceilDiv (n * rows) copyPoint
    let k := runEnd cut j.done total
    match s.moveSpan j.client (fld c 32 8) sp (s.streamBuf i) dp n (copyPoint * j.done) (min (n * rows) (copyPoint * k)) with
    | (s, some f) => s.faultCmdMem j.id f 0 0
    | (s, none) =>
      -- the start of an INGEST_PUT in a list is its first run
      let s := if first then s.setPutStart j.id else s
      if k < total then s.standAt j.id k (0, 0) else
      let st := match s.job j.id with
        | some j => (j.startAt, j.startTick)
        | none => (j.startAt, j.startTick)
      let fr : OpenFrame := { row := rows, rows := s.get (Od.IS_HEIGHT i), ts := (st.1 - s.tB) % 2 ^ 64,
                              tick := st.2 % 2 ^ 32, short := false, long := false, crc := false, fault := false }
      (s.publish i fr (if s.get (Od.IS_KIND i) == 3 then fld c 48 8 else 0)).endCmd j.id St.OK (toLe 4 f) 0

/-! ## Commands -/

/-- `INGEST_PUT` (R166). -/
def execIngestPut (dt : Nat) (j : JobId) (u : Course) (s : State) : Res :=
  .next (((s.advance dt).upsets u.upsets).runCmd j 5 0x16 (State.ingestPut u.cut))

/-- `FRAME_START_PACKET` (R162). -/
def execFrameStartPacket (dt : Nat) (port : Fin 4) (p : CsiHeader) (s : State) : Res :=
  .next ((s.advance dt).frameStartPkt port.val p)

/-- `LONG_PACKET` (R162). -/
def execLongPacket (dt : Nat) (port : Fin 4) (p : CsiHeader) (payload : List Byte) (crc : BitVec 16) (s : State) : Res :=
  .next ((s.advance dt).longPkt port.val p payload crc.toNat)

/-- `FRAME_END_PACKET` (R162). -/
def execFrameEndPacket (dt : Nat) (port : Fin 4) (p : CsiHeader) (s : State) : Res :=
  .next ((s.advance dt).frameEndPkt port.val p)

/-- `CSI_LANE_ERROR` (R168). -/
def execCsiLaneError (dt : Nat) (port : Fin 4) (st : CsiLanes) (s : State) : Res :=
  .next ((s.advance dt).csiLanes port.val st)

end Sys2Proof.Machine
end

