-- ==== Sys2Proof/Machine/Flags.lean ====
section
/-! DEFINITION. Number formats, rounding and the numeric flags (R193 to R209). Finite values are exact rationals. -/

namespace Sys2Proof.Machine

/-! Bits of `NUM_FLAGS` (R206). -/
namespace Nf
def NX : Nat := 1
def UF : Nat := 2
def OF : Nat := 4
def DZ : Nat := 8
def NV : Nat := 16
def SAT : Nat := 32
end Nf

/-- A floating-point format (R194): exponent and mantissa bits, bias, and whether it has infinities. -/
structure Fmt where
  eb : Nat
  mb : Nat
  bias : Nat
  inf : Bool
  deriving DecidableEq, Repr

def fmtE4M3 : Fmt := ⟨4, 3, 7, false⟩
def fmtE5M2 : Fmt := ⟨5, 2, 15, true⟩
def fmtF16 : Fmt := ⟨5, 10, 15, true⟩
def fmtBF16 : Fmt := ⟨8, 7, 127, true⟩
def fmtF32 : Fmt := ⟨8, 23, 127, true⟩

/-- Format codes of layer descriptors (R216). -/
inductive Elem where
  | int (bits : Nat) (sgn : Bool)
  | fp (f : Fmt)
  deriving DecidableEq, Repr

def elemOf (code : Nat) : Elem :=
  if code == 0 then .int 4 true else if code == 1 then .int 8 true else if code == 2 then .int 8 false
  else if code == 3 then .fp fmtE4M3 else if code == 4 then .fp fmtE5M2 else if code == 5 then .fp fmtF16
  else if code == 6 then .fp fmtBF16 else .fp fmtF32

def Fmt.bits (f : Fmt) : Nat := 1 + f.eb + f.mb

def Elem.bits : Elem → Nat
  | .int b _ => b
  | .fp f => f.bits

def Elem.isInt : Elem → Bool
  | .int _ _ => true
  | .fp _ => false

/-- A value: NaN (signalling or quiet), an infinity, or the exact rational ± n / d. Zero keeps its sign (R195). -/
inductive Num where
  | nan (signalling : Bool)
  | inf (neg : Bool)
  | fin (neg : Bool) (n d : Nat)
  deriving DecidableEq, Repr

/-- A result: bits of its format, and the flags it raises. -/
abbrev NumR := Nat × Nat

/-- The largest finite encoding of a format without its sign. -/
def Fmt.maxBits (f : Fmt) : Nat := if f.inf then (2 ^ f.eb - 1) * 2 ^ f.mb - 1 else 2 ^ (f.eb + f.mb) - 2

def Fmt.infBits (f : Fmt) : Nat := (2 ^ f.eb - 1) * 2 ^ f.mb

/-- The canonical quiet NaN (R196). -/
def Fmt.nanBits (f : Fmt) : Nat := if f.inf then (2 ^ f.eb - 1) * 2 ^ f.mb + 2 ^ (f.mb - 1) else 2 ^ (f.eb + f.mb) - 1

def Fmt.sign (f : Fmt) (neg : Bool) (b : Nat) : Nat := (if neg then 2 ^ (f.eb + f.mb) else 0) + b

/-- The value 2^e as a fraction. -/
def pow2 (e : Int) : Nat × Nat := if 0 ≤ e then (2 ^ e.toNat, 1) else (1, 2 ^ (-e).toNat)

/-- Read an encoding (R194, R196). -/
def Fmt.decode (f : Fmt) (b : Nat) : Num :=
  let neg := bitOf b (f.eb + f.mb)
  let ex := bitsOf b f.mb f.eb
  let m := bitsOf b 0 f.mb
  if f.inf && ex == 2 ^ f.eb - 1 then
    if m == 0 then .inf neg else .nan (!bitOf m (f.mb - 1))
  else if !f.inf && bitsOf b 0 (f.eb + f.mb) == 2 ^ (f.eb + f.mb) - 1 then .nan false
  else if ex == 0 then
    let p := pow2 (1 - (f.bias : Int) - f.mb)
    .fin neg (m * p.1) p.2
  else
    let p := pow2 ((ex : Int) - f.bias - f.mb)
    .fin neg ((2 ^ f.mb + m) * p.1) p.2

/-- A quotient rounded to nearest, ties to even (R197). -/
def rne (n d : Nat) : Nat :=
  let q := n / d
  let r := n % d
  if 2 * r < d then q else if d < 2 * r then q + 1 else q + q % 2

/-- Round an integer quotient to nearest, ties to even. -/
def rneInt (n : Int) (d : Nat) : Int := if 0 ≤ n then (rne n.toNat d : Nat) else -((rne (-n).toNat d : Nat) : Int)

/-- ⌊log2 (n / d)⌋ for n > 0. -/
def ilog2 (n d : Nat) : Int :=
  let k : Int := (Nat.log2 n : Int) - Nat.log2 d
  let p := pow2 k
  if d * p.1 ≤ n * p.2 then k else k - 1

/-- Round ± n / d once to a format (R197, R198, R206). -/
def Fmt.round (f : Fmt) (sat : Bool) (neg : Bool) (n d : Nat) : NumR :=
  if n == 0 then (f.sign neg 0, 0) else
  let emin : Int := 1 - f.bias
  let k := ilog2 n d
  let at_ := fun (q : Int) => let p := pow2 q; (n * p.2, d * p.1)
  let q := max (k - f.mb) (emin - f.mb)
  let x := at_ q
  let r := rne x.1 x.2
  let inexact := r * x.2 != x.1
  let bits := (q - (emin - f.mb)).toNat * 2 ^ f.mb + r
  -- the value rounded as though the exponent range were unbounded
  let u := at_ (k - f.mb)
  let ru := rne u.1 u.2
  let lim := pow2 (emin - (k - f.mb))
  let tiny := ru * lim.2 < lim.1
  let nx := if inexact then Nf.NX else 0
  if f.maxBits < bits then
    if f.inf && !sat then (f.sign neg f.infBits, Nf.OF ||| Nf.NX)
    else (f.sign neg f.maxBits, Nf.SAT ||| Nf.NX)
  else (f.sign neg bits, nx ||| (if tiny && inexact then Nf.UF else 0))

/-- Round a value to a format (R196, R198, R204). -/
def Fmt.ofNum (f : Fmt) (sat : Bool) : Num → NumR
  | .nan sig => (f.nanBits, if sig then Nf.NV else 0)
  | .inf neg => if f.inf then (f.sign neg f.infBits, 0) else (f.sign neg f.maxBits, Nf.SAT)
  | .fin neg n d => f.round sat neg n d

/-- Least and largest value of an integer format. -/
def intRange (bits : Nat) (sgn : Bool) : Int × Int :=
  if sgn then (-(2 ^ (bits - 1) : Nat), (2 ^ (bits - 1) : Nat) - 1) else (0, (2 ^ bits : Nat) - 1)

/-- Clamp an integer to a format, with SAT (R203, R204). -/
def satInt (bits : Nat) (sgn : Bool) (v : Int) : NumR :=
  let r := intRange bits sgn
  if v < r.1 then (unsigned bits r.1, Nf.SAT)
  else if r.2 < v then (unsigned bits r.2, Nf.SAT)
  else (unsigned bits v, 0)

/-- A value rounded to an integer, ties to even. -/
def Num.toInt : Num → Int
  | .fin neg n d => let v : Int := (rne n d : Nat); if neg then -v else v
  | _ => 0

/-- Conversion to an integer format (R204). -/
def intOfNum (bits : Nat) (sgn : Bool) : Num → NumR
  | .nan _ => (0, Nf.NV)
  | .inf neg => let r := intRange bits sgn; (unsigned bits (if neg then r.1 else r.2), Nf.NV)
  | x => satInt bits sgn x.toInt

/-- Read an element. -/
def Elem.decode (e : Elem) (b : Nat) : Num :=
  match e with
  | .int n sgn => let v : Int := if sgn then signed n b else (b % 2 ^ n : Nat)
                  .fin (v < 0) v.natAbs 1
  | .fp f => f.decode b

/-- The integer held by an element of an integer format. -/
def Elem.toInt (e : Elem) (b : Nat) : Int :=
  match e with
  | .int n true => signed n b
  | .int n false => (b % 2 ^ n : Nat)
  | .fp _ => 0

/-- Convert a value to an element format (R204). -/
def Elem.ofNum (e : Elem) (sat : Bool) (x : Num) : NumR :=
  match e with
  | .int n sgn => intOfNum n sgn x
  | .fp f => f.ofNum sat x

/-! ## Exact arithmetic on values -/

def Num.isNan : Num → Bool
  | .nan _ => true
  | _ => false

def Num.sigNan : Num → Bool
  | .nan s => s
  | _ => false

def Num.neg : Num → Num
  | .nan s => .nan s
  | .inf b => .inf (!b)
  | .fin b n d => .fin (!b) n d

def Num.isNeg : Num → Bool
  | .nan _ => false
  | .inf b => b
  | .fin b _ _ => b

def Num.isZero : Num → Bool
  | .fin _ n _ => n == 0
  | _ => false

def Num.ofInt (v : Int) : Num := .fin (v < 0) v.natAbs 1

/-- An invalid operation: the canonical NaN and NV. A signalling operand inside is the same (R196, R199). -/
abbrev NumX := Num × Nat

def finInt (neg : Bool) (n : Nat) : Int := if neg then -(n : Int) else n

/-- Exact sum of a list (R195, R199). -/
def numSum (l : List Num) : NumX :=
  if l.any Num.isNan then (.nan false, if l.any Num.sigNan then Nf.NV else 0)
  else
    let pos := l.any (fun x => x == .inf false)
    let ng := l.any (fun x => x == .inf true)
    if pos && ng then (.nan false, Nf.NV)
    else if pos then (.inf false, 0)
    else if ng then (.inf true, 0)
    else
      let d := l.foldl (fun d x => match x with
        | .fin _ _ e => Nat.lcm d e
        | _ => d) 1
      let t : Int := l.foldl (fun t x => match x with
        | .fin b n e => t + finInt b (n * (d / e))
        | _ => t) 0
      if t == 0 then (.fin (!l.isEmpty && l.all Num.isNeg) 0 1, 0) else (.fin (t < 0) t.natAbs d, 0)

/-- Exact product (R199). -/
def numMul (a b : Num) : NumX :=
  match a, b with
  | .nan x, .nan y => (.nan false, if x || y then Nf.NV else 0)
  | .nan x, _ => (.nan false, if x then Nf.NV else 0)
  | _, .nan y => (.nan false, if y then Nf.NV else 0)
  | .inf x, .inf y => (.inf (x != y), 0)
  | .inf x, .fin y n _ => if n == 0 then (.nan false, Nf.NV) else (.inf (x != y), 0)
  | .fin x n _, .inf y => if n == 0 then (.nan false, Nf.NV) else (.inf (x != y), 0)
  | .fin x n d, .fin y m e => (.fin (x != y) (n * m) (d * e), 0)

/-- Exact quotient (R199): a finite non-zero value over zero raises DZ. -/
def numDiv (a b : Num) : NumX :=
  match a, b with
  | .nan x, .nan y => (.nan false, if x || y then Nf.NV else 0)
  | .nan x, _ => (.nan false, if x then Nf.NV else 0)
  | _, .nan y => (.nan false, if y then Nf.NV else 0)
  | .inf _, .inf _ => (.nan false, Nf.NV)
  | .inf x, .fin y _ _ => (.inf (x != y), 0)
  | .fin x _ _, .inf y => (.fin (x != y) 0 1, 0)
  | .fin x n d, .fin y m e =>
    if m == 0 then (if n == 0 then (.nan false, Nf.NV) else (.inf (x != y), Nf.DZ))
    else (.fin (x != y) (n * e) (d * m), 0)

/-- Round an exact result, with the flags of both steps. Division by zero under SATURATE gives the largest finite
value with SAT (R199). -/
def Fmt.ofX (f : Fmt) (sat : Bool) (x : NumX) : NumR :=
  if sat && x.2 == Nf.DZ then
    (f.sign x.1.isNeg f.maxBits, Nf.DZ ||| Nf.SAT)
  else let r := f.ofNum sat x.1; (r.1, r.2 ||| x.2)

/-- ⌊√n⌋, bit by bit from bit `k` down. -/
def isqrtGo (n : Nat) : Nat → Nat → Nat
  | 0, r => r
  | k + 1, r => let t := r + 2 ^ k; isqrtGo n k (if t * t ≤ n then t else r)

def isqrt (n : Nat) : Nat := isqrtGo n (Nat.log2 n / 2 + 1) 0

/-- A square root of n / d with 96 bits beyond its leading bit and a sticky bit, enough for one correct rounding. -/
def sqrtFrac (n d : Nat) : Nat × Nat :=
  let k := 96 + Nat.log2 d + 1
  let x := n * 2 ^ (2 * k) / d
  let r := isqrt x
  let exact := r * r * d == n * 2 ^ (2 * k)
  (2 * r + (if exact then 0 else 1), 2 ^ (k + 1))

def numSqrt (a : Num) : NumX :=
  match a with
  | .nan x => (.nan false, if x then Nf.NV else 0)
  | .inf false => (.inf false, 0)
  | .inf true => (.nan false, Nf.NV)
  | .fin b n d => if n == 0 then (.fin b 0 1, 0) else if b then (.nan false, Nf.NV)
                  else let r := sqrtFrac n d; (.fin false r.1 r.2, 0)

/-- Reciprocal square root (R199), for one rounding. -/
def numRsqrt (a : Num) : NumX :=
  match a with
  | .nan x => (.nan false, if x then Nf.NV else 0)
  | .inf false => (.fin false 0 1, 0)
  | .inf true => (.nan false, Nf.NV)
  | .fin b n d => if n == 0 then (.inf b, Nf.DZ) else if b then (.nan false, Nf.NV)
                  else let r := sqrtFrac d n; (.fin false r.1 r.2, 0)

/-- Terms of the exponential series of x / 2^400 in fixed point with 400 fraction bits. -/
def expSeries (x : Nat) : Nat → Nat → Nat → Nat → Nat
  | 0, _, _, acc => acc
  | fuel + 1, i, term, acc =>
    let t := term * x / (2 ^ 400 * i)
    if t == 0 then acc else expSeries x fuel (i + 1) t (acc + t)

/-- Square in fixed point, `k` times. -/
def squareFix : Nat → Nat → Nat
  | 0, v => v
  | k + 1, v => squareFix k (v * v / 2 ^ 400)

/-- The exponential of an FP32 value, computed with 400 fraction bits and a sticky bit, then rounded once (R217). -/
def numExp (a : Num) : NumX :=
  match a with
  | .nan x => (.nan false, if x then Nf.NV else 0)
  | .inf false => (.inf false, 0)
  | .inf true => (.fin false 0 1, 0)
  | .fin b n d =>
    if n == 0 then (.fin false 1 1, 0)
    else if 200 * d < n then (if b then (.fin false 1 (2 ^ 400), 0) else (.fin false (2 ^ 400) 1, 0))
    else
      let x := n * 2 ^ 400 / d / 2 ^ 9
      let e := squareFix 9 (expSeries x 200 1 (2 ^ 400) (2 ^ 400))
      -- e is e^|x| · 2^400; for a negative argument its reciprocal
      if b then (.fin false (2 * (2 ^ 800 / e) + 1) (2 ^ 401), 0) else (.fin false (2 * e + 1) (2 ^ 401), 0)

/-! ## FP32 steps -/

/-- Operations on FP32 bits with one rounding each. -/
def f32Add (sat : Bool) (a b : Nat) : NumR := fmtF32.ofX sat (numSum [fmtF32.decode a, fmtF32.decode b])
def f32Sub (sat : Bool) (a b : Nat) : NumR := fmtF32.ofX sat (numSum [fmtF32.decode a, (fmtF32.decode b).neg])
def f32Mul (sat : Bool) (a b : Nat) : NumR := fmtF32.ofX sat (numMul (fmtF32.decode a) (fmtF32.decode b))
def f32Div (sat : Bool) (a b : Nat) : NumR := fmtF32.ofX sat (numDiv (fmtF32.decode a) (fmtF32.decode b))
def f32Sqrt (a : Nat) : NumR := fmtF32.ofX false (numSqrt (fmtF32.decode a))

/-- a < b as values; false with a NaN. -/
def numLt (a b : Num) : Bool :=
  match a, b with
  | .nan _, _ => false
  | _, .nan _ => false
  | .inf x, .inf y => x && !y
  | .inf x, _ => x
  | _, .inf y => !y
  | .fin x n d, .fin y m e => decide (finInt x (n * e) < finInt y (m * d))

def f32Lt (a b : Nat) : Bool := numLt (fmtF32.decode a) (fmtF32.decode b)

/-- One group of products, each rounded to FP32, summed exactly, rounded once, and added to the accumulator (R200). -/
def macGroup (sat : Bool) (acc : NumR) (l : List (Num × Num)) : NumR :=
  let ps := l.map (fun p => fmtF32.ofX sat (numMul p.1 p.2))
  let g := fmtF32.ofX sat (numSum (ps.map (fun p => fmtF32.decode p.1)))
  let r := f32Add sat acc.1 g.1
  (r.1, ps.foldl (fun f p => f ||| p.2) (acc.2 ||| g.2 ||| r.2))

/-! ## Sums whose order the spec leaves open -/

/-- An element of a list, by a number taken modulo its length, and the others. -/
def pick {α : Type} (l : List α) (i : Nat) : Option (α × List α) :=
  (l[i % l.length]?).map (fun a => (a, l.eraseIdx (i % l.length)))

/-- Add two terms; their flags pass a mask. -/
def addTerms (sat : Bool) (mask : Nat) (a b : NumR) : NumR :=
  let c := f32Add sat a.1 b.1
  (c.1, (a.2 ||| b.2) &&& mask ||| c.2)

/-- Join two terms at a time, in an order left open, until one is left; earlier flags pass a mask. -/
def joinTerms (sat : Bool) (mask site : Nat) : Nat → List NumR → List NumR
  | 0, l => l
  | _ + 1, [] => []
  | _ + 1, [a] => [a]
  | _ + 1, [a, b] => [addTerms sat mask a b]
  | fuel + 1, l =>
    match pick l (Config.sumOrder site (2 * fuel)) with
    | none => []
    | some (a, r) =>
      match pick r (Config.sumOrder site (2 * fuel + 1)) with
      | none => [a]
      | some (b, r) => joinTerms sat mask site fuel (addTerms sat mask a b :: r)

/-- The FP32 sum of some terms, rounded at each step, in an order that the spec leaves open; +0 of none. The flags of every
step but the last pass a mask. -/
def openSum (sat : Bool) (mask site : Nat) (l : List NumR) : NumR := (joinTerms sat mask site l.length l).headD (0, 0)

/-- Consecutive groups of 32 channels. -/
def groups32 {α : Type} (l : List α) : Nat → List (List α)
  | 0 => []
  | fuel + 1 => if l.isEmpty then [] else l.take 32 :: groups32 (l.drop 32) fuel

/-! ## Rotations (R289) -/

/-- Fraction bits of the exact elements of a rotation. -/
def rotBits : Nat := 400

/-- A finite FP32 value in fixed point; exact for every one of them once it is divided by 2^144. -/
def fixedOf (b : Nat) : Option Int :=
  match fmtF32.decode b with
  | .fin neg n d => some (finInt neg (n * 2 ^ rotBits / d))
  | _ => none

/-- Product of two 3 × 3 matrices in fixed point, by rows. -/
def mul3 (a b : List Int) : List Int :=
  (List.range 9).map (fun k =>
    ((List.range 3).foldl (fun t i => t + a.getD (k / 3 * 3 + i) 0 * b.getD (3 * i + k % 3) 0) 0) / (2 ^ rotBits : Nat))

def transpose3 (a : List Int) : List Int := (List.range 9).map (fun k => a.getD (k % 3 * 3 + k / 3) 0)

def identity3 : List Int := (List.range 9).map (fun k => if k % 4 == 0 then (2 ^ rotBits : Nat) else 0)

/-- Terms of the exponential series of a matrix. -/
def expTerms (k : List Int) : Nat → Nat → List Int → List Int → List Int
  | 0, _, _, acc => acc
  | fuel + 1, n, term, acc =>
    let t := (mul3 term k).map (· / (n : Int))
    expTerms k fuel (n + 1) t (List.zipWith (· + ·) acc t)

def squares3 : Nat → List Int → List Int
  | 0, m => m
  | n + 1, m => squares3 n (mul3 m m)

/-- Exp(ω), the rotation of angle |ω| about ω ÷ |ω|, within 2^-100 of its exact value: the series of the skew matrix of
ω ÷ 2^144, squared 144 times. None where ω is not finite. -/
def expRot (w : List Nat) : Option (List Int) :=
  match fixedOf (w.getD 0 0), fixedOf (w.getD 1 0), fixedOf (w.getD 2 0) with
  | some x, some y, some z =>
    let k := ([0, -z, y, z, 0, -x, -y, x, 0] : List Int).map (fun v => v / ((2 ^ 144 : Nat) : Int))
    some (squares3 144 (expTerms k 24 1 identity3 identity3))
  | _, _, _ => none

/-- A fixed-point value rounded to FP32. -/
def fixedToF32 (v : Int) : Nat := (fmtF32.round false (v < 0) v.natAbs (2 ^ rotBits)).1

/-- An element of a rotation in FP32: a free encoding where it is within 2^-20 of the exact one (R306), else the rounded one. -/
def rotNear (v : Nat) (e : Int) : Nat :=
  match fixedOf v with
  | some f => if (f - e).natAbs ≤ 2 ^ (rotBits - 20) then v else fixedToF32 e
  | none => fixedToF32 e

/-- Saturate an integer total once to INT32 (R200). -/
def satTotal (t : Int) : Int × Nat :=
  if t < -(2 ^ 31 : Int) then (-(2 ^ 31 : Int), Nf.SAT)
  else if (2 ^ 31 : Int) ≤ t then ((2 ^ 31 : Int) - 1, Nf.SAT) else (t, 0)

end Sys2Proof.Machine
end

