-- ==== Sys2Proof/Machine/Neural.lean ====
section
/-! DEFINITION. Layer descriptors: their fields, the checks of R214, and what each layer kind computes (R215 to R226,
R236). -/

namespace Sys2Proof.Machine

/-! ## Fields of a descriptor (R215, R218) -/

structure Tensor where
  va : Nat
  h : Nat
  w : Nat
  c : Nat
  pitch : Nat
  deriving DecidableEq, Repr

def tensorAt (d : List Byte) (off : Nat) : Tensor :=
  ⟨fld d off 8, fld d (off + 8) 2, fld d (off + 10) 2, fld d (off + 12) 2, fld d (off + 14) 2⟩

structure Layer where
  d : List Byte
  kind : Nat
  sat : Bool
  wino : Bool
  biasEn : Bool
  bandOut : Bool
  act : Nat
  aFmt : Nat
  bFmt : Nat
  outFmt : Nat
  kh : Nat
  kw : Nat
  sy : Nat
  sx : Nat
  dy : Nat
  dx : Nat
  padT : Nat
  padB : Nat
  padL : Nat
  padR : Nat
  padEdge : Bool
  upFuse : Bool
  upFrac : Bool
  upBil : Bool
  upFy : Nat
  upFx : Nat
  zA : Nat
  zB : Nat
  zOut : Int
  clampLo : Int
  clampHi : Int
  tileC : Nat
  tileH : Nat
  tileW : Nat
  param : Nat
  ta : Tensor
  tb : Tensor
  tout : Tensor
  chVa : Nat
  multA : Nat
  multB : Nat
  shift : Nat
  startX : Int
  stepX : Nat
  startY : Int
  stepY : Nat

/-- Decode a descriptor; `rows` is the step's row count that a tensor W of 0 stands for (R236). -/
def layerOf (d : List Byte) (rows : Option Nat) : Layer :=
  let byte := fun i => fld d i 1
  let ten := fun off => let t := tensorAt d off
    match rows with
    | some b => if t.w == 0 then { t with w := b } else t
    | none => t
  { d := d, kind := byte 0, sat := bitOf (byte 1) 7, wino := bitOf (byte 1) 6, biasEn := bitOf (byte 1) 5,
    bandOut := bitOf (byte 1) 4, act := bitsOf (byte 1) 2 2, aFmt := bitsOf (byte 2) 4 4, bFmt := bitsOf (byte 2) 0 4,
    outFmt := bitsOf (byte 3) 4 4, kh := byte 4, kw := byte 5, sy := bitsOf (byte 6) 4 4, sx := bitsOf (byte 6) 0 4,
    dy := bitsOf (byte 7) 4 4, dx := bitsOf (byte 7) 0 4, padT := bitsOf (byte 8) 4 4, padB := bitsOf (byte 8) 0 4,
    padL := bitsOf (byte 9) 4 4, padR := bitsOf (byte 9) 0 4, padEdge := bitOf (byte 10) 7,
    upFuse := bitOf (byte 11) 7, upFrac := bitOf (byte 11) 6, upBil := bitOf (byte 11) 0, upFy := byte 12,
    upFx := byte 13, zA := byte 14, zB := byte 15, zOut := signed 16 (fld d 16 2), clampLo := signed 16 (fld d 18 2),
    clampHi := signed 16 (fld d 20 2), tileC := fld d 22 2, tileH := byte 24, tileW := byte 25, param := fld d 28 4,
    ta := ten 32, tb := if byte 0 == 4 || byte 0 == 5 then ten 48 else tensorAt d 48, tout := ten 64, chVa := fld d 80 8, multA := fld d 88 4, multB := fld d 92 4,
    shift := bitsOf (byte 96) 0 6, startX := signed 32 (fld d 100 4), stepX := fld d 104 4,
    startY := signed 32 (fld d 108 4), stepY := fld d 112 4 }

namespace Layer

def isConv (l : Layer) : Bool := l.kind == 1 || l.kind == 2
def isPool (l : Layer) : Bool := l.kind == 7 || l.kind == 8
def isEw (l : Layer) : Bool := l.kind == 4 || l.kind == 5
def isMac (l : Layer) : Bool := l.kind == 1 || l.kind == 2 || l.kind == 3 || l.kind == 10
/-- The layer uses a kernel or window. -/
def windowed (l : Layer) : Bool := l.isConv || l.isPool
/-- The layer up-samples tensor A. -/
def ups (l : Layer) : Bool := l.kind == 6 || l.upFuse
/-- The accumulation is in integers (R216, R219). -/
def intAcc (l : Layer) : Bool := l.isMac && (elemOf l.aFmt).isInt
def outElem (l : Layer) : Elem := elemOf l.outFmt

/-- Height and width of tensor A after fused up-sampling (R224, R227). -/
def srcH (l : Layer) : Nat := if l.upFuse then (if l.upFrac then l.tout.h else l.upFy * l.ta.h) else l.ta.h
def srcW (l : Layer) : Nat := if l.upFuse then (if l.upFrac then l.tout.w else l.upFx * l.ta.w) else l.ta.w

/-- Output extent of a window (R217). -/
def extent (n p0 p1 dil k st : Nat) : Nat :=
  if n + p0 + p1 < dil * (k - 1) + 1 || st == 0 then 0 else (n + p0 + p1 - dil * (k - 1) - 1) / st + 1

/-- The output shape that the kind asks for, field by field (R217, R218, R224, R227, R236). -/
def shape (l : Layer) : List (Nat × Bool) :=
  let o := l.tout
  let is := fun (h w c : Bool) => [(72, h), (74, w), (76, c)]
  if l.windowed then
    is (o.h == extent l.srcH l.padT l.padB l.dy l.kh l.sy) (o.w == extent l.srcW l.padL l.padR l.dx l.kw l.sx)
      (l.kind == 1 || o.c == l.ta.c)
  else if l.kind == 3 then is (o.h == l.ta.h) (o.w == l.ta.w) true
  else if l.kind == 6 then
    is (l.upFrac || o.h == l.upFy * l.ta.h) (l.upFrac || o.w == l.upFx * l.ta.w) (o.c == l.ta.c)
  else if l.kind == 10 then
    is (o.h == 1) ((tensorAt l.d 64).w == 0) (o.c == l.tb.pitch * l.tb.c * l.tb.w)
  else is (o.h == l.ta.h) (o.w == l.ta.w) (o.c == l.ta.c)

/-- Weight elements of a MAC kind (R217). -/
def weightCount (l : Layer) : Nat :=
  if l.kind == 1 then l.tout.c * l.kh * l.kw * l.ta.c
  else if l.kind == 2 then l.kh * l.kw * l.ta.c
  else if l.kind == 3 then l.tout.c * l.ta.c else 0

/-- Output side of the Winograd tile of a pairing (R225); 0 where there is none. -/
def winoM (l : Layer) : Nat :=
  if (l.aFmt == 1 || l.aFmt == 2) && l.bFmt == 1 then 2
  else if (l.aFmt == 3 || l.aFmt == 4) && (l.bFmt == 3 || l.bFmt == 4) then 2
  else if l.aFmt == l.bFmt && (l.aFmt == 5 || l.aFmt == 6) then 4 else 0

/-- Operand pairings of the MAC kinds (R216); ATTENTION stores keys and values in floating point (R236). -/
def pairOk (l : Layer) : Bool :=
  (l.aFmt ≤ 2 && l.bFmt ≤ 1 && l.kind != 10) || ((l.aFmt == 3 || l.aFmt == 4) && (l.bFmt == 3 || l.bFmt == 4)) ||
    (l.aFmt == 5 && l.bFmt == 5) || (l.aFmt == 6 && l.bFmt == 6)

end Layer

/-- Bytes of a row of a tensor, and of the whole range from its first to its last byte. -/
def Tensor.rowBytes (t : Tensor) (e : Elem) : Nat := ceilDiv (t.w * t.c * e.bits) 8
def Tensor.span (t : Tensor) (e : Elem) : Nat := (t.h - 1) * t.pitch * 64 + t.rowBytes e

def overlap (a n b m : Nat) : Bool := 0 < n && 0 < m && a < b + m && b < a + n

/-- Where a layer runs: the quarters or the Dibber, last of its list or not, and the rows of a serving step. -/
structure LayerEnv where
  client : Nat
  dib : Bool
  last : Bool
  rows : Option Nat
  /-- pages and position of each row of a serving step, pool address, positions per page, bytes per position, and the
  byte offset of each ATTENTION slot within a position -/
  seqRows : List (List Nat × Nat)
  poolVa : Nat
  tokens : Nat
  kvBytes : Nat
  slotOff : List Nat

def netEnv (client : Nat) (last : Bool) : LayerEnv :=
  { client := client, dib := false, last := last, rows := none, seqRows := [], poolVa := 0, tokens := 1,
    kvBytes := 0, slotOff := [] }

/-- Checks of a descriptor: the offset of a field and whether it holds. `band` are the checks of R299 for a band-out
layer. -/
def Layer.checks (l : Layer) (e : LayerEnv) (band : List (Nat × Bool)) : List (Nat × Bool) :=
  let d := l.d
  let byte := fun i => fld d i 1
  let f32 := fun (c : Nat) => c == 7
  let ie := l.outElem.isInt
  let serving := e.rows.isSome
  let frac := l.ups && l.upFrac
  let dim : Nat → Tensor → List (Nat × Bool) := fun off t =>
    [(off, fld d off 8 < 2 ^ 40), (off + 8, 1 ≤ t.h), (off + 10, 1 ≤ (tensorAt d off).w || serving), (off + 12, 1 ≤ t.c)]
  let pitch : Nat → Tensor → Elem → Nat × Bool := fun off t e => (off, e.bits * t.w * t.c ≤ 8 * 64 * t.pitch)
  let zero : Nat → Nat → Nat × Bool := fun off n => (off, zeros d off n)
  let fields : List (Nat × Bool) → List (Nat × Bool) := id
  fields [(0, 1 ≤ l.kind && l.kind ≤ 10 && (l.kind != 10 || serving) && (!e.dib || l.isConv)),
   (1, byte 1 % 4 == 0 && l.act != 3 && (l.act != 2 || ie) && (!l.bandOut || (e.dib && e.last)) &&
       (!l.wino || (l.kind == 1 && l.kh == 3 && l.kw == 3 && l.sy == 1 && l.sx == 1 && l.dy == 1 && l.dx == 1 &&
         !e.dib && !serving && l.winoM != 0))),
   (2, l.aFmt ≤ 7 && l.bFmt ≤ 7 && (!l.isMac || l.pairOk) && (!(e.dib) || (l.aFmt != 0 && l.bFmt != 0)) &&
       (!(f32 l.aFmt) || !l.isMac)),
   (3, l.outFmt ≤ 7 && byte 3 % 16 == 0 && (l.outFmt != 0 || l.tout.c % 2 == 0)),
   (4, !l.windowed || (1 ≤ l.kh && l.kh ≤ 16 && (!e.dib || l.kh == 3 || l.kh == 5))),
   (5, !l.windowed || (1 ≤ l.kw && l.kw ≤ 16 && (!e.dib || l.kw == l.kh))),
   (6, !l.windowed || (1 ≤ l.sy && l.sy ≤ 8 && 1 ≤ l.sx && l.sx ≤ 8 && (!e.dib || (l.sy ≤ 2 && l.sx ≤ 2)))),
   (7, !l.windowed || (1 ≤ l.dy && l.dy ≤ 8 && 1 ≤ l.dx && l.dx ≤ 8 && (!e.dib || (l.dy == 1 && l.dx == 1)))),
   (10, byte 10 % 128 == 0),
   (11, (!l.upFuse || e.dib) && bitsOf (byte 11) 1 5 == 0),
   (12, !l.ups || (if l.upFrac then l.upFy == 0 else 2 ≤ l.upFy && l.upFy ≤ 4)),
   (13, !l.ups || (if l.upFrac then l.upFx == 0 else 2 ≤ l.upFx && l.upFx ≤ 4)),
   (14, l.aFmt == 2 || l.zA == 0),
   (15, (l.bFmt == 2 && l.isEw) || l.zB == 0),
   (16, match l.outElem with
      | .int b sgn => let r := intRange b sgn; decide (r.1 ≤ l.zOut ∧ l.zOut ≤ r.2)
      | .fp _ => true),
   (18, l.act != 2 || decide (l.clampLo ≤ l.clampHi)),
   (22, 0 < l.tileC && (l.tileC % 32 == 0 || l.tileC == l.tout.c) && l.tileH * l.tileW * l.tileC * 4 ≤ 65536),
   (24, 1 ≤ l.tileH && (!l.wino || l.tileH % (max 1 l.winoM) == 0)),
   (25, 1 ≤ l.tileW && (!l.wino || l.tileW % (max 1 l.winoM) == 0)),
   zero 26 2,
   (28, if l.kind == 9 then !numLt (fmtF32.decode l.param) (.fin false 0 1)
        else l.kind == 10 || l.param == 0)] ++
  dim 32 l.ta ++ [pitch 46 l.ta (elemOf l.aFmt)] ++
  (if e.dib then fields [(44, (l.ta.c ≤ 8 && l.tout.c ≤ 64) || (l.tout.c ≤ 8 && l.ta.c ≤ 64))] else []) ++
  (if l.kind == 10 then
     fields [(40, l.ta.h == 1), (42, (tensorAt d 32).w == 0), (44, l.ta.c == (l.tb.pitch + 2) * l.tb.c * l.tb.w)] else []) ++
  (if l.isEw then
     fields [(48, fld d 48 8 < 2 ^ 40), (56, l.tb.h == l.ta.h), (58, l.tb.w == l.ta.w && (1 ≤ (tensorAt d 48).w || serving)),
      (60, l.tb.c == l.ta.c), pitch 62 l.tb (elemOf l.bFmt)]
   else if l.kind == 6 then fields [zero 48 8, zero 56 2, zero 58 2, zero 60 2, zero 62 2]
   else if l.kind == 10 then
     fields [zero 48 8, (56, l.tb.h < e.slotOff.length), (58, 16 ≤ l.tb.w && l.tb.w ≤ 256 && l.tb.w % 16 == 0),
      (60, 1 ≤ l.tb.c && l.tb.c ≤ 64), (62, 1 ≤ l.tb.pitch && l.tb.pitch ≤ 16)]
   else if l.isMac then fields [(48, fld d 48 8 < 2 ^ 40), zero 56 2, zero 58 2, zero 60 2, zero 62 2]
   else []) ++
  (if l.bandOut then band else dim 64 l.tout ++ l.shape ++ [pitch 78 l.tout l.outElem]) ++
  fields [(80, l.chVa % 16 == 0 && (l.chVa != 0 || (!l.biasEn && !l.intAcc && l.kind != 9))),
   (96, bitsOf (byte 96) 6 2 == 0), zero 97 3,
   (100, l.upFrac || zeros d 100 4),
   (104, if l.upFrac then !frac || (1 ≤ l.stepX && l.stepX ≤ 0x10000) else zeros d 104 4),
   (108, l.upFrac || zeros d 108 4),
   (112, if l.upFrac then !frac || (1 ≤ l.stepY && l.stepY ≤ 0x10000) else zeros d 112 4),
   zero 116 12]

/-- The first offending field of a structure, by its byte offset. -/
def firstBad (l : List (Nat × Bool)) : Option Nat :=
  l.foldl (fun m c => if c.2 then m else match m with
    | some o => some (min o c.1)
    | none => some c.1) none

/-! ## Tensors in memory -/

/-- Rows of a tensor as read, one after another: its element format, its shape, and the first row held. -/
structure TData where
  e : Elem
  h : Nat
  w : Nat
  c : Nat
  y0 : Nat
  rowBytes : Nat
  bytes : List Byte
  deriving DecidableEq, Repr

/-- Raw bits of one element, packed under R195. -/
def TData.get (t : TData) (y x c : Nat) : Nat :=
  let bit := (x * t.c + c) * t.e.bits
  let v := fld t.bytes ((y - t.y0) * t.rowBytes + bit / 8) (ceilDiv t.e.bits 8)
  bitsOf v (bit % 8) t.e.bits

/-- How the pages of a range lie: as they must, some of them elsewhere, or one without a translation. -/
inductive Placed where
  | ok
  | elsewhere
  | fault (va : Nat)
  deriving DecidableEq, Repr

/-- A range that a layer uses: the offset of its field, its address and bytes, whether it is written, and whether DRAM may
hold it beside the Millpond (R221). -/
structure Place where
  off : Nat
  va : Nat
  n : Nat
  write : Bool
  dram : Bool
  deriving DecidableEq, Repr

/-- Where the pages of a range lie (R221). -/
def State.placed (s : State) (cl : Nat) (p : Place) : State × Placed :=
  if p.n == 0 then (s, .ok) else
  (rangeFrom (p.va / 2 ^ 16) ((p.va + p.n - 1) / 2 ^ 16 + 1 - p.va / 2 ^ 16)).foldl
    (fun (x : State × Placed) pg =>
      match x.2 with
      | .fault _ => x
      | w =>
        let a := max p.va (pg * 2 ^ 16)
        match x.1.resolve cl a p.write with
        | (s, some (.mill _, _)) => (s, w)
        | (s, some (.dram _, _)) => (s, if p.dram then w else .elsewhere)
        | (s, some _) => (s, .elsewhere)
        | (s, none) => (s, .fault a)) (s, .ok)

/-- Read n rows of a tensor from row y0 on. -/
def State.rdRows (s : State) (cl : Nat) (t : Tensor) (e : Elem) (y0 n : Nat) : State × TData × Option MemFault :=
  let rb := t.rowBytes e
  let r := (rangeFrom y0 n).foldl (fun (x : State × List Byte × Option MemFault) y =>
    if x.2.2.isSome then x else
    let r := x.1.rd cl (t.va + y * t.pitch * 64) rb
    (r.1, x.2.1 ++ r.2.1, r.2.2)) (s, [], none)
  (r.1, { e := e, h := t.h, w := t.w, c := t.c, y0 := y0, rowBytes := rb, bytes := r.2.1 }, r.2.2)

/-- Pack elements of one row (R195). -/
def packRow (bits : Nat) (l : List Nat) : List Byte :=
  if bits == 4 then
    let rec go : List Nat → List Byte
      | a :: b :: r => BitVec.ofNat 8 (a % 16 + 16 * (b % 16)) :: go r
      | [a] => [BitVec.ofNat 8 (a % 16)]
      | [] => []
    go l
  else l.flatMap (fun v => toLe (bits / 8) v)

/-! ## Sampling (R205, R223, R224) -/

/-- Clamp an index to 0 … n − 1. -/
def clampIdx (i : Int) (n : Nat) : Nat := if i < 0 then 0 else min i.toNat (n - 1)

/-- Source position of output column j in Q16.16 (R224). -/
def srcPos (frac : Bool) (f : Nat) (start : Int) (step j : Nat) : Int :=
  if frac then start + (j * step : Nat)
  else rneInt (65536 * (2 * (j : Int) + 1 - f)) (2 * f)

/-- A bilinear sample of four taps, weighted by 16-bit phases, computed exactly; a tap of weight 0 is left out (R205). -/
def bilinear (p00 p01 p10 p11 : Num) (h g : Nat) : NumX :=
  let t := [((65536 - h) * (65536 - g), p00), (h * (65536 - g), p01), ((65536 - h) * g, p10), (h * g, p11)]
  let ps := (t.filter (fun p => p.1 != 0)).map (fun p => numMul (.fin false p.1 (2 ^ 32)) p.2)
  let r := numSum (ps.map (·.1))
  (r.1, ps.foldl (fun f p => f ||| p.2) r.2)

/-- The exact bilinear sample of one channel at a position (R205, R224). -/
def TData.bilinearAt (t : TData) (py px : Int) (c : Nat) : NumX :=
  let y := py / 65536
  let x := px / 65536
  let at_ := fun (yy xx : Int) => t.e.decode (t.get (clampIdx yy t.h) (clampIdx xx t.w) c)
  bilinear (at_ y x) (at_ y (x + 1)) (at_ (y + 1) x) (at_ (y + 1) (x + 1)) (px % 65536).toNat (py % 65536).toNat

/-- The tap that nearest sampling takes, as raw bits (R224). -/
def TData.nearest (t : TData) (py px : Int) (c : Nat) : Nat :=
  let yy := if (py % 65536).toNat < 0x8000 then py / 65536 else py / 65536 + 1
  let xx := if (px % 65536).toNat < 0x8000 then px / 65536 else px / 65536 + 1
  t.get (clampIdx yy t.h) (clampIdx xx t.w) c

/-- The sample of one channel at a position, as bits of format `o` (R205, R224). -/
def TData.sample (t : TData) (o : Elem) (sat bil : Bool) (py px : Int) (c : Nat) : NumR :=
  if bil then
    let v := t.bilinearAt py px c
    let r := o.ofNum sat v.1
    (r.1, r.2 ||| v.2)
  else
    let raw := t.nearest py px c
    if o == t.e then (raw, 0) else o.ofNum sat (t.e.decode raw)

/-! ## One output element -/

/-- Per-channel record (R219). -/
structure ChRec where
  bias : Nat
  mult : Nat
  shift : Nat

def chRec (ch : List Byte) (c : Nat) : ChRec :=
  ⟨fld ch (16 * c) 4, fld ch (16 * c + 4) 4, bitsOf (fld ch (16 * c + 8) 1) 0 6⟩

/-- ReLU (R220). -/
def relu : Num → Num
  | .nan s => .nan s
  | x => if x.isNeg then .fin false 0 1 else x

/-- The output of a value v: activation, rounding, zero point and saturation (R203, R204, R220). A clamp bounds the rounded
value plus Z. -/
def Layer.output (l : Layer) (useZ : Bool) (v : NumX) : NumR :=
  let x := if l.act == 1 then relu v.1 else v.1
  let clamp := fun (b : Nat) (sgn : Bool) (w : Int) => satInt b sgn (max l.clampLo (min l.clampHi (w + l.zOut)))
  let r : NumR := match l.outElem, x with
    | .int b sgn, .fin _ _ _ =>
      if l.act == 2 then clamp b sgn x.toInt else satInt b sgn (x.toInt + (if useZ then l.zOut else 0))
    | .int b sgn, x =>
      let c := intOfNum b sgn x
      if l.act == 2 then
        let w := clamp b sgn ((Elem.int b sgn).toInt c.1)
        (w.1, c.2 ||| w.2)
      else c
    | .fp f, x => f.ofNum l.sat x
  (r.1, r.2 ||| v.2)

/-- One output of UPSAMPLE at a source position (R205, R220, R224): nearest sampling copies the tap. -/
def Layer.upsample (l : Layer) (a : TData) (py px : Int) (c : Nat) : NumR :=
  if l.upBil then l.output false (a.bilinearAt py px c)
  else
    let raw := a.nearest py px c
    if l.outElem != a.e || l.act == 2 then l.output false (a.e.decode raw, 0)
    else if l.act == 1 && !(a.e.decode raw).isNan && (a.e.decode raw).isNeg then (0, 0)
    else (raw, 0)

/-- An element of tensor A in the padded, possibly up-sampled source, with the flags of its sample (R223, R227): none is a
constant pad. -/
def Layer.tap (l : Layer) (src : Nat → Nat → Nat → NumR) (y x : Int) (c : Nat) : Option NumR :=
  if 0 ≤ y ∧ y < l.srcH ∧ 0 ≤ x ∧ x < l.srcW then some (src y.toNat x.toNat c)
  else if l.padEdge then some (src (clampIdx y l.srcH) (clampIdx x l.srcW) c)
  else none

def Layer.aVal (l : Layer) (t : Option NumR) : NumR :=
  match t with
  | some v => v
  | none => (if l.aFmt == 2 then l.zA else 0, 0)

/-- The signed operand of an integer product (R200). -/
def Layer.aInt (l : Layer) (raw : Nat) : Int := (elemOf l.aFmt).toInt raw - (if l.aFmt == 2 then l.zA else 0)

/-- Accumulate the products of kernel positions, each a list over channels (R200), and finish one output. -/
def Layer.mac (l : Layer) (rec : ChRec) (steps : List (List (Nat × Nat))) : NumR :=
  if l.intAcc then
    let t : Int := steps.foldl (fun t p => p.foldl (fun t q => t + l.aInt q.1 * (elemOf l.bFmt).toInt q.2) t)
      (if l.biasEn then signed 32 rec.bias else 0)
    let r := satTotal t
    let v : Num := .fin (r.1 < 0) (r.1.natAbs * rec.mult) (2 ^ rec.shift)
    l.output true (v, r.2)
  else
    let acc := steps.foldl (fun (a : NumR) p =>
      (groups32 p (p.length / 32 + 1)).foldl (fun a g =>
        macGroup l.sat a (g.map (fun q => ((elemOf l.aFmt).decode q.1, (elemOf l.bFmt).decode q.2)))) a)
      (if l.biasEn then rec.bias else 0, 0)
    l.output false (fmtF32.decode acc.1, acc.2)

/-- Raw bits of element i of a packed weight array. -/
def weightAt (e : Elem) (w : List Byte) (i : Nat) : Nat :=
  let bit := i * e.bits
  bitsOf (fld w (bit / 8) (ceilDiv e.bits 8)) (bit % 8) e.bits

/-- Kernel positions in ascending row, then column. -/
def kernelPos (kh kw : Nat) : List (Nat × Nat) := (List.range kh).flatMap (fun y => (List.range kw).map (fun x => (y, x)))

/-! ## Winograd transforms (R202, R225, R226) -/

/-- The matrices of F(m×m,3×3): input (m+2 × m+2), filter (m+2 × 3) and output (m × m+2). -/
structure Wino where
  m : Nat
  bt : List (List Num)
  g : List (List Num)
  at_ : List (List Num)

def ratio (n : Int) (d : Nat) : Num := .fin (n < 0) n.natAbs d

def matrixOf (d : Nat) (l : List (List Int)) : List (List Num) := l.map (·.map (ratio · d))

/-- Matrices that compute the convolution exactly, for each tile side. -/
def Wino.std (m : Nat) : Wino :=
  if m == 2 then
    { m := 2, bt := matrixOf 1 [[1, 0, -1, 0], [0, 1, 1, 0], [0, -1, 1, 0], [0, 1, 0, -1]],
      g := matrixOf 2 [[2, 0, 0], [1, 1, 1], [1, -1, 1], [0, 0, 2]],
      at_ := matrixOf 1 [[1, 1, 1, 0], [0, 1, -1, -1]] }
  else
    { m := 4, bt := matrixOf 1 [[4, 0, -5, 0, 1, 0], [0, -4, -4, 1, 1, 0], [0, 4, -4, -1, 1, 0], [0, -2, -1, 2, 1, 0],
        [0, 2, -1, -2, 1, 0], [0, 4, 0, -5, 0, 1]],
      g := matrixOf 24 [[6, 0, 0], [-4, -4, -4], [-4, 4, -4], [1, 2, 4], [1, -2, 4], [0, 0, 24]],
      at_ := matrixOf 1 [[1, 1, 1, 1, 1, 0], [0, 1, -1, 2, -2, 0], [0, 1, 1, 4, 4, 0], [0, 1, -1, 8, -8, 1]] }

/-- Row i, column j of a matrix. -/
def entry (l : List (List Num)) (i j : Nat) : Num := (l.getD i []).getD j (.fin false 0 1)

/-- In exact arithmetic the matrices give output i = Σ over the taps r of patch element i + r × filter element r. -/
def Wino.exact (w : Wino) : Bool :=
  (List.range w.m).all (fun i => (List.range 3).all (fun r => (List.range (w.m + 2)).all (fun p =>
    let t := numSum ((List.range (w.m + 2)).map (fun k =>
      (numMul (numMul (entry w.at_ i k) (entry w.g k r)).1 (entry w.bt k p)).1))
    match t.1 with
    | .fin neg n d => if p == i + r then !neg && n == d else n == 0
    | _ => false)))

/-- The transform of the device. The spec gives no matrices: any that are exact are possible (log entry 15). -/
def Wino.of (m : Nat) : Wino :=
  let mat := fun k rows cols => (List.range rows).map (fun i => (List.range cols).map (fun j =>
    let e := Config.winoMatrix m k i j
    ratio e.1 (e.2 + 1)))
  let w : Wino := { m := m, bt := mat 0 (m + 2) (m + 2), g := mat 1 (m + 2) 3, at_ := mat 2 m (m + 2) }
  if w.exact then w else Wino.std m

/-- Flags that a rounding inside a transform raises: all but NX and UF (R202). -/
def winoFlags : Nat := Nf.OF ||| Nf.DZ ||| Nf.NV ||| Nf.SAT

/-- One element of a transform along one dimension: products with the matrix row's non-zero elements, rounded to FP32, and
their sum with `more`. -/
def winoPass (sat : Bool) (site : Nat) (row : List Num) (v : Nat → NumR) (more : List NumR) : NumR :=
  let ts := (row.zipIdx.filter (fun e => !e.1.isZero)).map (fun e =>
    let t := v e.2
    let p := fmtF32.ofX sat (numMul e.1 (fmtF32.decode t.1))
    (p.1, t.2 &&& winoFlags ||| p.2))
  openSum sat winoFlags site (ts ++ more)

/-- Element (i, j) of M × d × Mᵀ, columns first. -/
def winoBoth (sat : Bool) (site : Nat) (m : List (List Num)) (d : Nat → Nat → NumR) (i j : Nat) (more : List NumR) : NumR :=
  winoPass sat (site + 1) (m.getD j []) (fun q => winoPass sat site (m.getD i []) (fun p => d p q) []) more

/-- A floating-point Winograd output in FP32: the transforms of patch and filter, their element products summed over the
channels, and the output transform with the bias, each step rounded (R202, R226). `a p q c` is a patch element and `f r t c`
a filter element in FP32; (i, j) is the place in the tile. -/
def winoOut (sat : Bool) (m chans : Nat) (a f : Nat → Nat → Nat → NumR) (bias : List NumR) (i j : Nat) : NumR :=
  let w := Wino.of m
  let prod := fun (p q : Nat) => openSum sat winoFlags 4 ((List.range chans).map (fun c =>
    let x := winoBoth sat 0 w.bt (fun p q => a p q c) p q []
    let y := winoBoth sat 2 w.g (fun r t => f r t c) p q []
    let z := f32Mul sat x.1 y.1
    (z.1, (x.2 ||| y.2 ||| z.2) &&& winoFlags)))
  winoBoth sat 5 w.at_ prod i j bias

/-- An element in FP32. -/
def Elem.toF32 (e : Elem) (sat : Bool) (raw : Nat) : NumR := fmtF32.ofNum sat (e.decode raw)

/-- One output of CONV or DWCONV; integer Winograd equals direct convolution (R202). -/
def Layer.conv (l : Layer) (src : Nat → Nat → Nat → NumR) (w ch : List Byte) (y x co : Nat) : NumR :=
  let be := elemOf l.bFmt
  let at_ := fun (yy xx ci : Nat) => l.aVal (l.tap src (yy - (l.padT : Int)) (xx - (l.padL : Int)) ci)
  let wt := fun (ky kx ci : Nat) => weightAt be w
    (if l.kind == 1 then ((co * l.kh + ky) * l.kw + kx) * l.ta.c + ci else (ky * l.kw + kx) * l.ta.c + ci)
  if l.wino && !l.intAcc then
    let m := l.winoM
    let r := winoOut l.sat m l.ta.c
      (fun p q c => let t := at_ (y / m * m + p) (x / m * m + q) c
                    let v := (elemOf l.aFmt).toF32 l.sat t.1
                    (v.1, v.2 ||| t.2))
      (fun r t c => be.toF32 l.sat (wt r t c))
      (if l.biasEn then [((chRec ch co).bias, 0)] else []) (y % m) (x % m)
    l.output false (fmtF32.decode r.1, r.2)
  else
    let steps := (kernelPos l.kh l.kw).map (fun k =>
      (if l.kind == 1 then List.range l.ta.c else [co]).map (fun ci =>
        let t := at_ (y * l.sy + k.1 * l.dy) (x * l.sx + k.2 * l.dx) ci
        (t, wt k.1 k.2 ci)))
    let r := l.mac (chRec ch co) (steps.map (·.map (fun q => (q.1.1, q.2))))
    (r.1, steps.flatten.foldl (fun f q => f ||| q.1.2) r.2)

/-- One output of a pooling layer (R217, R223). -/
def Layer.pool (l : Layer) (a : TData) (y x c : Nat) : NumR :=
  let inside := (kernelPos l.kh l.kw).filterMap (fun k =>
    let yy : Int := (y * l.sy + k.1 * l.dy : Nat) - (l.padT : Int)
    let xx : Int := (x * l.sx + k.2 * l.dx : Nat) - (l.padL : Int)
    if 0 ≤ yy ∧ yy < a.h ∧ 0 ≤ xx ∧ xx < a.w then some (a.e.decode (a.get yy.toNat xx.toNat c)) else none)
  match inside with
  | [] => l.output true (.fin false 0 1, 0)
  | v :: r =>
    if l.kind == 7 then
      if inside.any Num.isNan then l.output false (.nan (inside.any Num.sigNan), 0)
      else l.output false (r.foldl (fun m u => if numLt m u then u else m) v, 0)
    else
      let sm := numSum inside
      let q := numDiv sm.1 (.fin false inside.length 1)
      l.output false (q.1, sm.2 ||| q.2)

/-- One output of EWADD or EWMUL (R217). -/
def Layer.ew (l : Layer) (a b : Nat) : NumR :=
  let ea := elemOf l.aFmt
  let eb := elemOf l.bFmt
  if ea.isInt && eb.isInt then
    let va := ea.toInt a - l.zA
    let vb := eb.toInt b - l.zB
    let t : Int := if l.kind == 4 then va * l.multA + vb * l.multB else va * vb * l.multA
    l.output true (.fin (t < 0) t.natAbs (2 ^ l.shift), 0)
  else if l.kind == 4 then l.output false (numSum [ea.decode a, eb.decode b])
  else l.output false (numMul (ea.decode a) (eb.decode b))

/-- The outputs of NORM for one pixel (R217). -/
def Layer.norm (l : Layer) (xs : List Nat) (ch : List Byte) : List NumR :=
  let ins := xs.map (fun v => (elemOf l.aFmt).toF32 l.sat v)
  let sq := ins.foldl (fun (a : NumR) v =>
    let p := f32Mul l.sat v.1 v.1
    let r := f32Add l.sat a.1 p.1
    (r.1, a.2 ||| v.2 ||| p.2 ||| r.2)) (0, 0)
  let mean := f32Div l.sat sq.1 (fmtF32.ofNum false (.ofInt xs.length)).1
  let pe := f32Add l.sat mean.1 l.param
  let rs := fmtF32.ofX l.sat (numRsqrt (fmtF32.decode pe.1))
  let fl := sq.2 ||| mean.2 ||| pe.2 ||| rs.2
  ins.zipIdx.map (fun e =>
    let p := f32Mul l.sat e.1.1 rs.1
    let q := f32Mul l.sat p.1 (chRec ch e.2).bias
    l.output false (fmtF32.decode q.1, fl ||| p.2 ||| q.2))

/-- FP32 dot product of two lists of values under R200. -/
def dot32 (sat : Bool) (l : List (Num × Num)) : NumR :=
  (groups32 l (l.length / 32 + 1)).foldl (fun a g => macGroup sat a g) (0, 0)

/-- One query head over keys and values of positions 0 to t, as raw bits of the storage format (R217). -/
def Layer.attend (l : Layer) (q : List Nat) (keys vals : List (List Nat)) : List NumR :=
  let ea := elemOf l.aFmt
  let eb := elemOf l.bFmt
  let scores := keys.map (fun k =>
    let s := dot32 l.sat ((q.zip k).map (fun p => (ea.decode p.1, eb.decode p.2)))
    let m := f32Mul l.sat s.1 l.param
    (m.1, s.2 ||| m.2))
  let mx := match scores with
    | [] => 0
    | s :: r => r.foldl (fun m u => if f32Lt m u.1 then u.1 else m) s.1
  let exps := scores.map (fun s =>
    let d := f32Sub l.sat s.1 mx
    let e := fmtF32.ofX l.sat (numExp (fmtF32.decode d.1))
    (e.1, s.2 ||| d.2 ||| e.2))
  let sum := exps.foldl (fun (a : NumR) e => let r := f32Add l.sat a.1 e.1; (r.1, a.2 ||| e.2 ||| r.2)) (0, 0)
  let ws := exps.map (fun e => f32Div l.sat e.1 sum.1)
  let fl := ws.foldl (fun f w => f ||| w.2) sum.2
  (List.range q.length).map (fun i =>
    let r := dot32 l.sat ((ws.zip vals).map (fun p => (fmtF32.decode p.1.1, eb.decode (p.2.getD i 0))))
    l.output false (fmtF32.decode r.1, fl ||| r.2))

/-! ## The pieces of a layer -/

/-- A part of a layer's output: rows, columns and channels, the ends exclusive. -/
structure Piece where
  y0 : Nat
  y1 : Nat
  x0 : Nat
  x1 : Nat
  c0 : Nat
  c1 : Nat
  deriving DecidableEq, Repr

/-- Channels of a layer tile. A NORM in place takes all of a pixel's, since it reads them all (log entry 52). -/
def Layer.tileCh (l : Layer) : Nat := if l.kind == 9 && l.tout == l.ta then l.tout.c else l.tileC

/-- Bands of an output height (R228, R300). -/
def bandCount (h : Nat) : Nat := ceilDiv h 32

/-- Pre-emption points of a layer: its tiles on a quarter (R222), its bands of 32 rows on the Dibber (R228). -/
def Layer.pieceCount (l : Layer) (dib : Bool) : Nat :=
  if dib then bandCount l.tout.h
  else ceilDiv l.tout.h l.tileH * (ceilDiv l.tout.w l.tileW * ceilDiv l.tout.c l.tileCh)

/-- The n-th piece, in ascending row, then column, then channel block. -/
def Layer.piece (l : Layer) (dib : Bool) (n : Nat) : Piece :=
  if dib then { y0 := 32 * n, y1 := min l.tout.h (32 * n + 32), x0 := 0, x1 := l.tout.w, c0 := 0, c1 := l.tout.c }
  else
    let nc := ceilDiv l.tout.c l.tileCh
    let nx := ceilDiv l.tout.w l.tileW
    let y := n / (nx * nc) * l.tileH
    let x := n / nc % nx * l.tileW
    let c := n % nc * l.tileCh
    { y0 := y, y1 := min l.tout.h (y + l.tileH), x0 := x, x1 := min l.tout.w (x + l.tileW), c0 := c,
      c1 := min l.tout.c (c + l.tileCh) }

/-- Pixels of a piece, row by row. -/
def Piece.pixels (p : Piece) : List (Nat × Nat) :=
  (rangeFrom p.y0 (p.y1 - p.y0)).flatMap (fun y => (rangeFrom p.x0 (p.x1 - p.x0)).map (fun x => (y, x)))

/-- Positions of R224 for every output row and column. -/
def Layer.positions (l : Layer) (y x : Nat) : Option (Int × Int) :=
  some (srcPos l.upFrac l.upFy l.startY l.stepY y, srcPos l.upFrac l.upFx l.startX l.stepX x)

/-- The first row and the number of rows of tensor A whose samples rows lo up to hi of an up-sampled map of width w read. -/
def Layer.sampledRows (l : Layer) (pos : Nat → Nat → Option (Int × Int)) (w lo hi : Nat) : Nat × Nat :=
  let ys := (rangeFrom lo (hi - lo)).flatMap (fun y => (List.range w).filterMap (fun x =>
    (pos y x).map (fun p => clampIdx (p.1 / 65536) l.ta.h)))
  match ys with
  | [] => (0, 0)
  | y :: r =>
    let a := r.foldl min y
    (a, min l.ta.h (r.foldl max y + 2) - a)

/-- The first row and the number of rows of tensor A that output rows lo up to hi need, with their halo (R228). -/
def Layer.needs (l : Layer) (pos : Nat → Nat → Option (Int × Int)) (lo hi : Nat) : Nat × Nat :=
  if l.windowed then
    let a := clampIdx ((lo * l.sy : Nat) - (l.padT : Int)) l.srcH
    let b := clampIdx (((hi - 1) * l.sy + (l.kh - 1) * l.dy : Nat) - (l.padT : Int)) l.srcH + 1
    if l.upFuse then l.sampledRows pos l.srcW a b else (a, b - a)
  else if l.kind == 6 then l.sampledRows pos l.tout.w lo hi
  else (lo, hi - lo)

/-- Source elements of a convolution: tensor A itself, or its up-sampled map in its own format, with the flags of the sample
(R205, R227). -/
def Layer.source (l : Layer) (a : TData) (pos : Nat → Nat → Option (Int × Int)) (y x c : Nat) : NumR :=
  if l.upFuse then
    match pos y x with
    | some p => a.sample a.e l.sat l.upBil p.1 p.2 c
    | none => (0, 0)
  else (a.get y x c, 0)

/-- Channels c0 up to c1 of one output pixel. -/
def Layer.pixel (l : Layer) (a b : TData) (w ch : List Byte) (pos : Nat → Nat → Option (Int × Int)) (y x c0 c1 : Nat) :
    List NumR :=
  if l.kind == 9 then ((l.norm ((List.range a.c).map (a.get y x)) ch).drop c0).take (c1 - c0)
  else (rangeFrom c0 (c1 - c0)).map (fun c =>
    if l.isConv then l.conv (l.source a pos) w ch y x c
    else if l.kind == 3 then
      l.mac (chRec ch c) [(List.range a.c).map (fun k => (a.get y x k, weightAt (elemOf l.bFmt) w (c * a.c + k)))]
    else if l.isEw then l.ew (a.get y x c) (b.get y x c)
    else if l.kind == 6 then
      match l.positions y x with
      | some p => l.upsample a p.1 p.2 c
      | none => (0, 0)
    else l.pool a y x c)

/-- Flags of some results. -/
def rowFlags (l : List NumR) : Nat := l.foldl (fun f r => f ||| r.2) 0

/-- What a layer, or a piece of one, does to the state; `flags` are those raised up to then (R207). -/
inductive LRes where
  | ok (s : State) (flags : Nat)
  /-- the descriptor is refused at an offset -/
  | bad (s : State) (off : Nat)
  | mem (s : State) (f : MemFault) (flags : Nat)
  deriving DecidableEq

/-- Go on after what has run, with its flags. -/
def LRes.andThen (r : LRes) (f : State → LRes) : LRes :=
  match r with
  | .ok s fl =>
    match f s with
    | .ok s g => .ok s (fl ||| g)
    | .bad s off => .bad s off
    | .mem s m g => .mem s m (fl ||| g)
  | r => r

/-- Do something for each element of a list in turn. -/
def State.eachOf {α : Type} (s : State) (l : List α) (f : State → α → LRes) : LRes :=
  l.foldl (fun r a => r.andThen (fun s => f s a)) (.ok s 0)

/-- A write of results, whose flags count once they are written. -/
def State.wrResults (s : State) (cl va bits : Nat) (v : List NumR) : LRes :=
  match s.wr cl va (packRow bits (v.map (·.1))) with
  | (s, some f) => .mem s f 0
  | (s, none) => .ok s (rowFlags v)

/-- Address of a channel of an output pixel (R218). -/
def Layer.outVa (l : Layer) (y x c : Nat) : Nat :=
  l.tout.va + y * l.tout.pitch * 64 + (x * l.tout.c + c) * l.outElem.bits / 8

/-- Address of slot bytes of position t in a sequence's pages (R234). -/
def LayerEnv.kvVa (e : LayerEnv) (pages : List Nat) (t off : Nat) : Nat :=
  e.poolVa + pages.getD (t / e.tokens) 0 * 65536 + t % e.tokens * e.kvBytes + off

/-- Split a list into pieces of n. -/
def piecesOf {α : Type} (n : Nat) (l : List α) : List (List α) :=
  (List.range (if n == 0 then 0 else l.length / n)).map (fun i => (l.drop (i * n)).take n)

/-- Read the keys and values of positions 0 to t of a sequence. -/
def State.rdKv (s : State) (e : LayerEnv) (pages : List Nat) (t off n : Nat) :
    State × List (List Byte) × Option MemFault :=
  (List.range (t + 1)).foldl (fun (z : State × List (List Byte) × Option MemFault) p =>
    if z.2.2.isSome then z else
    let q := z.1.rd e.client (e.kvVa pages p off) n
    (q.1, z.2.1 ++ [q.2.1], q.2.2)) (s, [], none)

/-- One row of an ATTENTION layer (R236): its keys and values are stored before its first channel block, then its query heads
attend, and channels c0 up to c1 are written. -/
def State.attendRow (s : State) (l : Layer) (e : LayerEnv) (a : TData) (x c0 c1 : Nat) : LRes :=
  let heads := l.tb.pitch * l.tb.c
  let dd := l.tb.w
  let eb := elemOf l.bFmt
  let nb := eb.bits / 8
  let base := e.slotOff.getD l.tb.h 0
  let row := e.seqRows.getD x ([], 0)
  let vals := (List.range a.c).map (fun c => a.get 0 x c)
  let kv := (vals.drop (heads * dd)).map (fun v => eb.ofNum l.sat ((elemOf l.aFmt).decode v))
  (if c0 == 0 then s.wrResults e.client (e.kvVa row.1 row.2 base) eb.bits kv else .ok s 0).andThen (fun s =>
    match s.rdKv e row.1 row.2 base (2 * l.tb.c * dd * nb) with
    | (s, _, some f) => .mem s f 0
    | (s, pos, none) =>
      let head := fun (b : List Byte) (i : Nat) => (piecesOf nb (slice b (i * dd * nb) (dd * nb))).map (fun p => le p)
      let outs := (List.range heads).flatMap (fun h =>
        l.attend ((vals.drop (h * dd)).take dd) (pos.map (fun b => head b (h / l.tb.pitch)))
          (pos.map (fun b => head b (l.tb.c + h / l.tb.pitch))))
      s.wrResults e.client (l.outVa 0 x c0) l.outElem.bits ((outs.drop c0).take (c1 - c0)))

/-- Compute and write one piece of a layer: the rows of tensors A and B that it needs are read, and its pixels written row by
row. -/
def State.runPiece (s : State) (l : Layer) (e : LayerEnv) (w ch : List Byte) (p : Piece) : LRes :=
  let n := l.needs l.positions p.y0 p.y1
  match s.rdRows e.client l.ta (elemOf l.aFmt) n.1 n.2 with
  | (s, _, some f) => .mem s f 0
  | (s, a, none) =>
    match (if l.isEw then s.rdRows e.client l.tb (elemOf l.bFmt) p.y0 (p.y1 - p.y0) else (s, a, none)) with
    | (s, _, some f) => .mem s f 0
    | (s, b, none) =>
      s.eachOf p.pixels (fun s px =>
        if l.kind == 10 then s.attendRow l e a px.2 p.c0 p.c1
        else s.wrResults e.client (l.outVa px.1 px.2 p.c0) l.outElem.bits
          (l.pixel a b w ch l.positions px.1 px.2 p.c0 p.c1))

/-! ## Taking a layer -/

/-- Bytes of the weight array (R217). -/
def Layer.weightBytes (l : Layer) : Nat :=
  if l.isMac && l.kind != 10 then ceilDiv (l.weightCount * (elemOf l.bFmt).bits) 8 else 0

/-- Bytes of the per-channel records (R219). -/
def Layer.chBytes (l : Layer) : Nat := if l.chVa == 0 then 0 else 16 * l.tout.c

/-- The pool pages that the rows of a step have. -/
def LayerEnv.kvPages (e : LayerEnv) : List Nat := (e.seqRows.flatMap (fun r => r.1.take (r.2 / e.tokens + 1))).eraseDups

/-- The ranges that a layer uses, in the order of their fields, and where they may lie (R221). -/
def Layer.places (l : Layer) (e : LayerEnv) : List Place :=
  [{ off := 32, va := l.ta.va, n := l.ta.span (elemOf l.aFmt), write := false, dram := false }] ++
  (if l.isEw then [{ off := 48, va := l.tb.va, n := l.tb.span (elemOf l.bFmt), write := false, dram := false }] else []) ++
  (if l.kind == 10 then e.kvPages.map (fun p =>
     { off := 48, va := e.poolVa + 65536 * p, n := 65536, write := true, dram := true }) else []) ++
  [{ off := 48, va := l.tb.va, n := l.weightBytes, write := false, dram := true }] ++
  (if l.bandOut then [] else
     [{ off := 64, va := l.tout.va, n := l.tout.span l.outElem, write := true, dram := false }]) ++
  [{ off := 80, va := l.chVa, n := l.chBytes, write := false, dram := true }]

/-- The output overlaps no input, except that EWADD, EWMUL and NORM may write over tensor A itself (R222). -/
def Layer.overlapOk (l : Layer) (e : LayerEnv) : Bool :=
  let same := l.tout == l.ta && l.outFmt == l.aFmt && (l.isEw || l.kind == 9)
  let o : Place := { off := 64, va := l.tout.va, n := l.tout.span l.outElem, write := true, dram := false }
  l.bandOut || ((l.places e).filter (fun p => p.off != 64)).all (fun p =>
    (same && p.off == 32) || !overlap o.va o.n p.va p.n)

/-- The lesser of two offsets, where there are any. -/
def minOff (a b : Option Nat) : Option Nat :=
  match a, b with
  | some x, some y => some (min x y)
  | some x, none => some x
  | none, b => b

/-- The pages of the ranges named before an offending field: the first range that lies where it may not, and the first
address without a translation. -/
def State.placesOf (s : State) (cl : Nat) (l : List Place) (bad : Option Nat) : State × Option Nat × Option Nat :=
  (l.filter (fun p => bad.all (p.off < ·))).foldl (fun (x : State × Option Nat × Option Nat) p =>
    match x.1.placed cl p with
    | (s, .ok) => (s, x.2)
    | (s, .elsewhere) => (s, minOff x.2.1 (some p.off), x.2.2)
    | (s, .fault va) => (s, x.2.1, if x.2.2.isSome then x.2.2 else some va)) (s, none, none)

/-- A reserved part of a per-channel record is not 0 (R219). -/
def chBad (ch : List Byte) : Bool :=
  (List.range (ch.length / 16)).any (fun c => bitsOf (fld ch (16 * c + 8) 1) 6 2 != 0 || !zeros ch (16 * c + 9) 7)

/-- Take a layer: everything that R214 has checked before it writes anything. A descriptor that breaks a rule is refused even
where a page has no translation (log entry 52). -/
def State.takeLayer (s : State) (l : Layer) (e : LayerEnv) (band : List (Nat × Bool)) : LRes :=
  let bad := firstBad (l.checks e band)
  let r := s.placesOf e.client (l.places e) bad
  let s := r.1
  let bad := minOff bad (minOff r.2.1 (if l.overlapOk e then none else some 64))
  match bad, r.2.2 with
  | some off, va =>
    if off < 80 || va.isSome then .bad s off
    else match s.rd e.client l.chVa l.chBytes with
      | (s, ch, none) => .bad s (if chBad ch then 80 else off)
      | (s, _, some _) => .bad s off
  | none, some va => .mem (s.xlatFault e.client va) ⟨4, va⟩ 0
  | none, none =>
    match s.rd e.client l.chVa l.chBytes with
    | (s, _, some f) => .mem s f 0
    | (s, ch, none) => if chBad ch then .bad s 80 else .ok s 0

/-- Read the weights and the per-channel records of a layer. -/
def State.rdParams (s : State) (l : Layer) (e : LayerEnv) : State × List Byte × List Byte × Option MemFault :=
  match s.rd e.client l.tb.va l.weightBytes with
  | (s, _, some f) => (s, [], [], some f)
  | (s, w, none) =>
    let r := s.rd e.client l.chVa l.chBytes
    (r.1, w, r.2.1, r.2.2)

/-- Count a completed layer (R230). -/
def State.countLayer (s : State) (l : Layer) : State :=
  let s := s.set Od.LAYERS_RUN (min (2 ^ 48 - 1) (s.get Od.LAYERS_RUN + 1))
  s.when l.wino (·.inc Od.WINO_LAYERS)

/-- Run the pieces of a taken layer from number t up to n; the Dibber counts its bands, and a layer whose pieces have all run
is counted (R222, R228, R230). -/
def State.runPieces (s : State) (l : Layer) (e : LayerEnv) (t n : Nat) : LRes :=
  match s.rdParams l e with
  | (s, _, _, some f) => .mem s f 0
  | (s, w, ch, none) =>
    (s.eachOf (rangeFrom t (n - t)) (fun s i =>
      (s.runPiece l e w ch (l.piece e.dib i)).andThen (fun s => .ok (s.when e.dib (·.inc Od.DIB_BANDS)) 0))).andThen
      (fun s => .ok (if n == l.pieceCount e.dib then s.countLayer l else s) 0)

/-- A refused descriptor (R214, R230). -/
def State.noteDescFault (s : State) (index off : Nat) : State :=
  (s.inc Od.DESC_FAULTS).set Od.LAST_DESC_FAULT ((index + 1) % 2 ^ 16 * 2 ^ 16 + off)

end Sys2Proof.Machine
end

