-- ==== Sys2Proof/Machine/NeuralJobs.lean ====
section
/-! DEFINITION. RUN_NET and RUN_DIBBER (R212 to R214, R227, R228), and the binding of a band-out layer to its frame
(R299, R300). -/

namespace Sys2Proof.Machine

/-- Where a list of layers stands: at a layer, the pieces of it that have run, and its descriptor once it is taken. -/
structure NetPos where
  layer : Nat
  piece : Nat
  desc : List Byte
  deriving DecidableEq, Repr

/-- How a run of a list of layers ended: all run, stopped at a pre-emption point, at a band-out layer that may bind, a
descriptor refused, or a memory fault at a layer. -/
inductive NetEnd where
  | ok
  | stop (p : NetPos)
  | bands (desc : List Byte)
  | bad (index off : Nat)
  | mem (index : Nat) (f : MemFault)
  deriving DecidableEq, Repr

/-- A network in progress: the state, the flags of the run, and why it stopped. -/
abbrev NetRes := State × Nat × NetEnd

/-- The place within its layers at which a job stands, as its count of pre-emption points keeps it. -/
def Job.netPos (j : Job) : NetPos := { layer := j.done / 2 ^ 64, piece := j.done % 2 ^ 64, desc := j.desc }

def NetPos.points (p : NetPos) : Nat := p.layer * 2 ^ 64 + p.piece

/-- A job's command stands at a place within its layers. -/
def State.standAtLayer (s : State) (id : JobId) (p : NetPos) : State :=
  match s.job id with
  | some j => s.putJob { j with done := p.points, desc := p.desc }
  | none => s

/-- Read the descriptor of a layer. -/
def State.rdDesc (s : State) (cl va i : Nat) : State × List Byte × Option MemFault := s.rd cl (va + 128 * i) 128

/-- The checks of R299 on a band-out layer, with its shape rule. -/
def State.bandChecks (s : State) (l : Layer) : List (Nat × Bool) :=
  let p := l.tout.va % 4
  [(64, l.tout.va < 4 && s.on (Od.MR_EN p) && s.pipeOn p && (s.pipe p).bandOut.isNone),
   (3, l.outFmt == 2),
   (11, !s.on (Od.MR_LATCH p) || l.upFuse),
   (72, l.tout.h == s.get (Od.V_ACTIVE p)),
   (74, l.tout.w == s.get (Od.H_ACTIVE p)),
   (76, l.tout.c == 3 || l.tout.c == 4),
   (78, l.tout.pitch == 0)] ++ l.shape

/-- Take the layer at a place: one that has begun was checked then (R214). -/
def State.takeAt (s : State) (va : Nat) (e : LayerEnv) (p : NetPos) : State × List Byte × NetEnd :=
  if p.piece != 0 then (s, p.desc, .ok) else
  match s.rdDesc e.client va p.layer with
  | (s, d, some f) => (s, d, .mem p.layer f)
  | (s, d, none) =>
    let l := layerOf d e.rows
    match s.takeLayer l e (s.bandChecks l) with
    | .ok s _ => (s, d, if l.bandOut then .bands d else .ok)
    | .bad s off => (s.noteDescFault p.layer off, d, .bad p.layer off)
    | .mem s f _ => (s, d, .mem p.layer f)

/-- Run layers from a place on: `left` are still to end, and `cut` more pre-emption points may pass, or any number (R214,
R222, R228). -/
def State.runLayers (s : State) (va : Nat) (env : Nat → LayerEnv) (p : NetPos) (cut : Option Nat) : Nat → NetRes
  | 0 => (s, 0, .ok)
  | left + 1 =>
    let e := env p.layer
    match s.takeAt va e p with
    | (s, d, .ok) =>
      let l := layerOf d e.rows
      let total := l.pieceCount e.dib
      let n := runEnd cut p.piece total
      match s.runPieces l e p.piece n with
      | .bad s off => (s, 0, .bad p.layer off)
      | .mem s f fl => (s, fl, .mem p.layer f)
      | .ok s fl =>
        let cut := cut.map (· - (n - p.piece))
        if n < total then (s, fl, .stop { p with piece := n, desc := d })
        else if 0 < left && cut == some 0 then (s, fl, .stop { layer := p.layer + 1, piece := 0, desc := [] })
        else
          let r := s.runLayers va env { layer := p.layer + 1, piece := 0, desc := [] } cut left
          (r.1, fl ||| r.2.1, r.2.2)
    | (s, _, e) => (s, 0, e)

/-- Run a list of n descriptors from a place in it on; `env i` is the environment of layer i. -/
def State.runNetwork (s : State) (va n : Nat) (env : Nat → LayerEnv) (p : NetPos) (cut : Option Nat) : NetRes :=
  s.runLayers va env p cut (n - p.layer)

/-- First offending field of a RUN_NET or RUN_DIBBER payload (R212). -/
def netBad (c : List Byte) (most : Nat) : Option Nat :=
  if fld c 24 8 % 128 != 0 then some 24
  else if fld c 32 2 == 0 || fld c 32 2 > most then some 32
  else if !zeros c 34 30 then some 34
  else none

/-! ## Band-out layers (R299, R300) -/

/-- The environment of a layer on the Dibber. -/
def dibEnv (client : Nat) (last : Bool) : LayerEnv := { netEnv client last with dib := true }

/-- Three F32 values of a pose (R289), fetched as a pipe fetches: what faults reads 0 (R119, R309). -/
def State.rdPose (s : State) (cl va : Nat) : State × List Nat :=
  let r := s.rdThrough cl va 12
  (r.1, [fld r.2.1 0 4, fld r.2.1 4 4, fld r.2.1 8 4])

/-- Bands of a frame that a band-out layer finds settled when it binds: skipped for it (R300, R303). -/
def settledBands (l : List BandState) : Nat :=
  (l.filter (fun b => b != .pending && b != .inProgress)).length

/-- A band-out layer of a job has ended: its bands written and missed join those that `DETAIL` will carry (R303). -/
def State.endBands (s : State) (b : BandOut) : State :=
  match s.job b.job with
  | none => s
  | some j =>
    let d := toLe 2 (fld j.detail 0 2 + b.wrote) ++ toLe 2 (fld j.detail 2 2 + b.missed)
    ((s.putJob { j with detail := d }).countLayer (layerOf b.desc none)).endCmd b.job St.OK [] 0

/-- The band-out job of a pipe completes its command once no band of the frame is left to it (R300, R303). -/
def State.settleBandOut (s : State) (p : Nat) : State :=
  let x := s.pipe p
  match x.bandOut with
  | none => s
  | some b =>
    if x.bands.any (fun e => e == .pending || e == .inProgress) then s
    else match s.job b.job with
      | some j => if j.phase == .started && b.wrote + b.missed != 0 then
          (s.putPipe p { x with bandOut := some { b with wrote := 0, missed := 0 } }).endBands b
        else s
      | none => s

/-- A band-out layer binds to the frame in progress of its pipe; its job then waits for the bands (R300, R302). In a
frozen frame every write is dropped and every band reported as skipped (R319). -/
def State.bindBands (s : State) (j : Job) (d : List Byte) : State :=
  let l := layerOf d none
  let p := l.tout.va % 4
  let r := if s.on (Od.MR_LATCH p) then s.rdPose (s.pipeClient p) (s.pipe p).mr.srcPoseVa else (s, [0, 0, 0])
  let s := r.1
  let x := s.pipe p
  let n := x.bands.length
  let b : BandOut := { job := j.id, desc := d, pose := r.2, newest := r.2, wrote := 0,
                       missed := if x.frozen then n else settledBands x.bands }
  let s := s.putPipe p { x with bandOut := some b }
  if x.frozen then
    (s.putPipe p { x with bandOut := some { b with missed := 0 } }).endBands b
  else
    let s := match s.job j.id with
      | some k => s.putJob { k with blocked := true }
      | none => s
    s.settleBandOut p

/-! ## RUN_NET and RUN_DIBBER -/

/-- A run of a job's layers has ended (R214). -/
def State.endNet (j : Job) (r : NetRes) : State :=
  let s := r.1.addFlags j.id r.2.1
  match r.2.2 with
  | .ok => s.endCmd j.id St.OK [] 0
  | .stop p => s.standAtLayer j.id p
  | .bands d => s.bindBands j d
  | .bad i off => s.faultCmd j.id 2 (i + 1) off 0
  | .mem i f => s.faultCmdMem j.id f (i + 1) 0

/-- A run of a list of layers, at most `most`, in environments that say where they run (R212). -/
def State.runLayersCmd (most : Nat) (env : Nat → Bool → LayerEnv) (cut : Option Nat) (s : State) (j : Job)
    (c : List Byte) : State :=
  match netBad c most with
  | some off => s.faultCmd j.id 2 0 off 0
  | none =>
    let n := fld c 32 2
    State.endNet j (s.runNetwork (fld c 24 8) n (fun i => env j.client (i + 1 == n)) j.netPos cut)

/-- RUN_NET (R212, R214). -/
def State.runNetCmd : Option Nat → State → Job → List Byte → State := State.runLayersCmd 4096 netEnv

/-- RUN_DIBBER (R212, R227, R228, R299, R300). -/
def State.runDibberCmd : Option Nat → State → Job → List Byte → State := State.runLayersCmd 16 dibEnv

/-! ## Commands -/

/-- `RUN_NET` (R212). -/
def execRunNet (dt : Nat) (j : JobId) (u : Course) (s : State) : Res :=
  .next (((s.advance dt).upsets u.upsets).runCmd j 1 0x10 (State.runNetCmd u.cut))

/-- `RUN_DIBBER` (R212). -/
def execRunDibber (dt : Nat) (j : JobId) (u : Course) (s : State) : Res :=
  .next (((s.advance dt).upsets u.upsets).runCmd j 1 0x18 (State.runDibberCmd u.cut))

end Sys2Proof.Machine
end

