-- ==== Sys2Proof/Machine/Kernels.lean ====
section
/-! DEFINITION. Kernel containers: their layout, manifest and module checks, LOAD_KERNEL, UNLOAD_KERNEL and the emptying
of a slot (R187 to R189, R266 to R269). -/

namespace Sys2Proof.Machine

def State.kernel (s : State) (cl k : Nat) : Option Kernel := mget s.raster.kernels (16 * cl + k)

def State.putKernel (s : State) (cl k : Nat) (x : Kernel) : State :=
  let s := { s with raster := { s.raster with kernels := mset s.raster.kernels (16 * cl + k) x } }
  s.set (Od.CL_KSLOTS cl) (putBit (s.get (Od.CL_KSLOTS cl)) k true)

/-- A slot is emptied, and its code store space freed (R268). -/
def State.dropKernel (s : State) (cl k : Nat) : State :=
  match s.kernel cl k with
  | none => s
  | some x =>
    let s := { s with raster := { s.raster with kernels := mdel s.raster.kernels (16 * cl + k) } }
    let s := s.set (Od.CL_KSLOTS cl) (putBit (s.get (Od.CL_KSLOTS cl)) k false)
    s.set Od.CODE_STORE_FREE (s.get Od.CODE_STORE_FREE + x.codeBytes)

/-! ## The container (R266) -/

/-- Offset and length of a section. -/
def section_ (b : List Byte) (off : Nat) : Nat × Nat := (fld b off 4, fld b (off + 4) 4)

def sectionBytes (b : List Byte) (off : Nat) : List Byte := slice b (fld b off 4) (fld b (off + 4) 4)

def apart (a b : Nat × Nat) : Bool := a.1 + a.2 ≤ b.1 || b.1 + b.2 ≤ a.1

/-- Layout of R266. -/
def containerOk (b : List Byte) : Bool :=
  let n := b.length
  let a := section_ b 8
  let l := section_ b 16
  let m := section_ b 24
  n ≥ 256 && n ≤ 0x400000 && fld b 0 4 == 0x4B434E31 && fld b 4 2 == 1 && fld b 6 1 ≤ 2 &&
    [a, l, m].all (fun x => x.1 % 16 == 0 && 64 ≤ x.1 && x.1 + x.2 ≤ n - 192) && apart a l && apart a m && apart l m

/-- Bytes of the code store that a lowered section takes (R267). -/
def codeBytesOf (b : List Byte) : Nat := ceilDiv (fld b 20 4) 4096 * 4096

/-! ## The manifest (R187 to R189) -/

/-- The container from its manifest's header on: the manifest's offsets count from there (R187). -/
def manifestOf (b : List Byte) : List Byte := b.drop (fld b 24 4)

/-- The cheap-point record at an offset: `BLOCK_ID` and `CYCLES_TO_NEXT` (R188). -/
def cheapPoint (m : List Byte) (off i : Nat) : Nat × Nat := (fld m (off + 8 * i) 4, fld m (off + 8 * i + 4) 4)

/-- The live-range record at an offset: first and last cheap point, bytes, kind (R189). -/
def liveRange (m : List Byte) (off i : Nat) : Nat × Nat × Nat × Nat :=
  let o := off + 12 * i
  (fld m o 2, fld m (o + 2) 2, fld m (o + 4) 4, fld m (o + 8) 1)

def cheapPoints (m : List Byte) : List (Nat × Nat) := (List.range (fld m 36 2)).map (cheapPoint m (fld m 40 4))

def liveRanges (m : List Byte) : List (Nat × Nat × Nat × Nat) := (List.range (fld m 38 2)).map (liveRange m (fld m 44 4))

/-- Bytes of a kind live at a cheap point (R189). -/
def liveBytes (l : List (Nat × Nat × Nat × Nat)) (kind i : Nat) : Nat :=
  l.foldl (fun n r => if r.2.2.2 == kind && r.1 ≤ i && i ≤ r.2.1 then n + r.2.2.1 else n) 0

/-- `MAGIC`, `VERSION` and the three checks of R189: the records lie in the container, their ranges run forward below
`CHEAP_COUNT`, and no point has more live bytes than declared. -/
def manifestOk (m : List Byte) : Bool :=
  let cc := fld m 36 2
  let rs := liveRanges m
  fld m 0 4 == 0x4B4D4631 && fld m 4 2 == 1 && fld m 40 4 + 8 * cc ≤ m.length && fld m 44 4 + 12 * fld m 38 2 ≤ m.length &&
    rs.all (fun r => r.1 ≤ r.2.1 && r.2.1 < cc) &&
    (List.range cc).all (fun i => liveBytes rs 0 i ≤ fld m 16 4 && liveBytes rs 1 i ≤ fld m 20 4)

/-- The limits of reason 6 (R267). -/
def manifestLimits (m : List Byte) (stage : Nat) : Bool :=
  let lanes := fld m 26 2
  1 ≤ lanes && lanes ≤ 1024 && fld m 24 2 * ceilDiv lanes 64 ≤ 1024 && fld m 28 4 ≤ 65536 && (stage == 2 || lanes == 64)

/-! ## The module (R269; the numbers are those of the SPIR-V registry, log entry 7) -/

def wordsOf : Nat → List Byte → List Nat
  | 0, _ => []
  | n + 1, b => if b.isEmpty then [] else fld b 0 4 :: wordsOf n (b.drop 4)

/-- The instructions of a module: opcode and operands; none where the stream is malformed. -/
def spirvInstrs : Nat → List Nat → Option (List (Nat × List Nat))
  | 0, _ => none
  | _ + 1, [] => some []
  | fuel + 1, w :: r =>
    let n := w / 2 ^ 16
    if n == 0 || r.length < n - 1 then none
    else (spirvInstrs fuel (r.drop (n - 1))).map (fun l => (w % 2 ^ 16, r.take (n - 1)) :: l)

def spirvModule (b : List Byte) : Option (List (Nat × List Nat)) :=
  match wordsOf b.length b with
  | m :: v :: _ :: _ :: sc :: r =>
    if b.length % 4 == 0 && m == 0x07230203 && v % 256 == 0 && v / 2 ^ 16 == 1 && v / 2 ^ 8 % 2 ^ 8 ≤ 6 && sc == 0
    then spirvInstrs (r.length + 1) r else none
  | _ => none

def spirvCaps : List Nat :=
  [0, 1, 9, 11, 22, 29, 39, 41, 42, 50, 56, 61, 63, 64, 65, 4427, 4433, 4448, 4464, 4466, 4467, 5345, 5347, 5379]

/-- "GLSL.std.450" as words. -/
def glslStd450 : List Nat := [0x4C534C47, 0x6474732E, 0x3035342E, 0]

/-- Execution models of the stages. -/
def stageModel (stage : Nat) : Nat := if stage == 0 then 0 else if stage == 1 then 4 else 5

/-- Check 7 of R267. -/
def spirvOk (b : List Byte) (stage : Nat) : Bool :=
  match spirvModule b with
  | none => false
  | some l =>
    let entries := l.filter (fun i => i.1 == 15)
    entries.length == 1 && entries.all (fun i => i.2.head? == some (stageModel stage)) &&
    l.all (fun i =>
      if i.1 == 17 then spirvCaps.contains (i.2.getD 0 0x10000)
      else if i.1 == 10 then false
      else if i.1 == 11 then i.2.drop 1 == glslStd450
      else if i.1 == 14 then (i.2.getD 0 9 == 0 || i.2.getD 0 9 == 5348) && (i.2.getD 1 9 == 1 || i.2.getD 1 9 == 3)
      else if i.1 == 16 || i.1 == 331 then i.2.getD 1 0 != 4460 && i.2.getD 1 0 != 4463
      else true)

/-- A module declares an execution mode. -/
def spirvMode (b : List Byte) (mode : Nat) : Bool :=
  match spirvModule b with
  | none => false
  | some l => l.any (fun i => i.1 == 16 && i.2.getD 1 0 == mode)

/-- A module has an instruction with one of some opcodes. -/
def spirvHas (b : List Byte) (p : Nat → Bool) : Bool :=
  match spirvModule b with
  | none => false
  | some l => l.any (fun i => p i.1)

/-- Opcodes that declare, name, type, decorate or give control flow, and have no effect of their own. -/
def spirvPassive (op : Nat) : Bool :=
  op ≤ 8 || (10 ≤ op && op ≤ 59 && op != 12) || (71 ≤ op && op ≤ 75) || (245 ≤ op && op ≤ 256) || op == 317 || op == 330 ||
    op == 331 || op == 332

/-- A module can raise a flag, stop at a cheap point or touch memory: it has an instruction that is more than passive. -/
def spirvActs (b : List Byte) : Bool := spirvHas b (fun op => !spirvPassive op)

/-- A module reads or writes memory or an image, or calls the extended set: its arguments are then read. -/
def spirvAccesses (b : List Byte) : Bool :=
  spirvHas b (fun op => op == 12 || (60 ≤ op && op ≤ 64) || (86 ≤ op && op ≤ 107) || (227 ≤ op && op ≤ 242) ||
    (305 ≤ op && op ≤ 320) || 4400 ≤ op)

/-- A module can discard a fragment: OpKill, OpTerminateInvocation or OpDemoteToHelperInvocation. -/
def spirvDiscards (b : List Byte) : Bool := spirvHas b (fun op => op == 252 || op == 4416 || op == 5380)

/-! ## LOAD_KERNEL (R267) -/

/-- The reason for which a container is refused, or 0. -/
def State.containerRefused (s : State) (cl k : Nat) (b : List Byte) : Nat :=
  let n := b.length
  let key := slice b (n - 192) 96
  let man := manifestOf b
  let stage := fld b 6 1
  if !containerOk b then 1
  else if !(List.range 4).any (fun i => let h := s.getDom (Od.KC_KEY_HASH i); h.length != 0 && h == sha384 key) then 2
  else if !ecdsaVerify key (b.take (n - 96)) (b.drop (n - 96)) then 3
  else if fld b 32 4 != s.get Od.DEVICE_ID || fld b 36 1 != s.get Od.STEPPING then 4
  else if !manifestOk man then 5
  else if !manifestLimits man stage then 6
  else if !spirvOk (sectionBytes b 8) stage then 7
  else if s.get Od.CODE_STORE_FREE < codeBytesOf b then 8
  else if (s.kernel cl k).isSome then 9
  else 0

def kernelOf (b : List Byte) : Kernel :=
  let man := manifestOf b
  { stage := fld b 6 1, spirv := sectionBytes b 8, codeBytes := codeBytesOf b, wgLanes := fld man 26 2,
    vregs := fld man 24 2, sharedBytes := fld man 28 4, privateBytes := fld man 32 4, wcetPerGroup := fld man 8 4,
    maxTile := fld man 12 4, aMax := fld man 16 4, sMax := fld man 20 4, cheap := cheapPoints man, ranges := liveRanges man,
    unloading := false, waiting := [], users := [] }

/-- First offending field of a LOAD_KERNEL's own payload (R246). -/
def loadKernelBad (c : List Byte) : Option Nat :=
  if fld c 24 8 % 256 != 0 then some 24
  else if fld c 36 1 > 15 then some 36
  else if !zeros c 37 27 then some 37
  else none

/-- A refusal is counted and recorded, and the job ends FAULT with its reason (R267). -/
def State.refuseContainer (s : State) (j : Job) (k reason : Nat) : State :=
  let s := (s.inc Od.KC_REFUSED).set Od.KC_LAST_REFUSE (j.client % 64 * 2 ^ 26 + k * 2 ^ 22 + reason)
  s.faultCmd j.id 2 0 reason 0

def State.loadKernelCmd (s : State) (j : Job) (c : List Byte) : State :=
  match loadKernelBad c with
  | some off => s.faultCmd j.id 2 0 off 0
  | none =>
    let k := fld c 36 1
    if fld c 32 4 > 0x400000 then s.refuseContainer j k 1 else
    match s.rd j.client (fld c 24 8) (fld c 32 4) with
    | (s, _, some f) => s.faultCmdMem j.id f 0 0
    | (s, b, none) =>
      let reason := s.containerRefused j.client k b
      if reason != 0 then s.refuseContainer j k reason
      else
        let s := s.putKernel j.client k (kernelOf b)
        let s := s.set Od.CODE_STORE_FREE (s.get Od.CODE_STORE_FREE - codeBytesOf b)
        s.endCmd j.id St.OK [] 0

/-! ## UNLOAD_KERNEL (R268) -/

/-- A command of a client names a kernel slot: a DISPATCH, or a RENDER_PASS with a draw that does. -/
def State.cmdNames (s : State) (cl k : Nat) (c : List Byte) : Bool :=
  if slotOpcode c == 0x13 then fld c 24 1 == k
  else if slotOpcode c == 0x12 then
    let pass := (s.rd cl (fld c 24 8) 192).2.1
    (List.range (min (fld pass 16 4) 1048576)).any (fun i =>
      let d := (s.rd cl (fld pass 8 8 + 64 * i) 64).2.1
      fld d 4 1 == k || fld d 5 1 == k)
  else false

/-- A job uses a kernel slot by its own command, or by one its list still holds. -/
def State.jobNames (s : State) (k : Nat) (j : Job) : Bool :=
  if slotOpcode j.slot == 1 then
    (rangeFrom j.taken (min (fld j.slot 32 4) 65535 - j.taken)).any (fun i =>
      s.cmdNames j.client k (s.rd j.client (fld j.slot 24 8 + 64 * i) 64).2.1)
  else s.cmdNames j.client k j.slot

/-- The slot is marked; the job waits until it is emptied, or completes at once on an empty slot. -/
def State.unloadKernelCmd (s : State) (j : Job) (c : List Byte) : State :=
  let k := fld c 24 1
  if k > 15 then s.faultCmd j.id 2 0 24 0
  else if !zeros c 25 39 then s.faultCmd j.id 2 0 25 0
  else match s.kernel j.client k with
    | none => s.endCmd j.id St.OK [] 0
    | some x =>
      let users := (s.qs.jobs.filter (fun o => o.id != j.id && o.client == j.client && o.phase == .started &&
        engineOf o.id.q.val == 0 && s.jobNames k o)).map (·.id)
      let x := if x.unloading then { x with waiting := x.waiting ++ [j.id] }
        else { x with unloading := true, waiting := [j.id], users := users }
      (s.putKernel j.client k x).putJob { j with blocked := true }

/-- The slot is emptied once no started job uses it, and the unloading jobs complete. -/
def State.emptySlot (s : State) (cl k : Nat) : State :=
  match s.kernel cl k with
  | none => s
  | some x =>
    if !x.unloading || x.users.any (fun id => s.qs.jobs.any (fun j => j.id == id && j.phase == .started)) then s
    else (x.waiting.filter (fun id => s.qs.jobs.any (fun j => j.id == id && j.phase == .started && j.blocked))).foldl
      (fun s id => s.endCmd id St.OK [] 0) (s.dropKernel cl k)

/-- The kernel that a job may use at a slot: none where it is empty, or unloading and the job had not started (R268). -/
def State.kernelFor (s : State) (j : Job) (k : Nat) : Option Kernel :=
  match s.kernel j.client k with
  | none => none
  | some x => if x.unloading && !x.users.contains j.id then none else some x

/-! ## Commands -/

/-- `LOAD_KERNEL` (R267). -/
def execLoadKernel (dt : Nat) (j : JobId) (s : State) : Res :=
  .next ((s.advance dt).runCmd j 0 0x10 State.loadKernelCmd)

/-- `UNLOAD_KERNEL` (R268). -/
def execUnloadKernel (dt : Nat) (j : JobId) (s : State) : Res :=
  .next ((s.advance dt).runCmd j 0 0x11 State.unloadKernelCmd)

/-- `KERNEL_SLOT_EMPTIED` (R268). -/
def execKernelSlotEmptied (dt : Nat) (cl : Fin 64) (k : Fin 16) (s : State) : Res :=
  .next ((s.advance dt).emptySlot cl.val k.val)

end Sys2Proof.Machine
end

