-- ==== Sys2Proof/Machine/Pixels.lean ====
section
/-! DEFINITION. The fixed-function stages: assembly, clipping, viewport, culling, rasterisation, depth test, blending and
conversion (R243 to R250), and where the texels of a texture lie (R258, R259). -/

namespace Sys2Proof.Machine

/-! ## Vertices and clipping (R243 stages 3 and 4) -/

/-- A clip-space position, and its weights over the vertices of its primitive. -/
structure CV where
  x : Rat
  y : Rat
  z : Rat
  w : Rat
  of_ : List Rat
  deriving DecidableEq, Repr

/-- The value of F32 bits; none for a NaN or an infinity. -/
def ratOfF32 (b : Nat) : Option Rat :=
  match fmtF32.decode b with
  | .fin neg n d => some (mkRat (finInt neg n) d)
  | _ => none

def ratOfNum : Num → Rat
  | .fin neg n d => mkRat (finInt neg n) d
  | _ => 0

/-- A rational rounded once to F32 (R197). -/
def f32OfRat (r : Rat) : Nat := (fmtF32.round false (r < 0) r.num.natAbs r.den).1

/-- The position of vertex i of n, from the first four words of a vertex kernel. -/
def cvOf (n i : Nat) (l : List Nat) : Option CV :=
  match ratOfF32 (l.getD 0 0), ratOfF32 (l.getD 1 0), ratOfF32 (l.getD 2 0), ratOfF32 (l.getD 3 0) with
  | some x, some y, some z, some w => some ⟨x, y, z, w, (List.range n).map (fun k => if k == i then 1 else 0)⟩
  | _, _, _, _ => none

/-- The positions of a primitive, where all are finite. -/
def cvsOf (l : List (List Nat)) : Option (List CV) :=
  let r := l.mapIdx (cvOf l.length)
  if r.all Option.isSome then some (r.filterMap id) else none

/-- The planes of R243: a point is inside where each is not negative. -/
def clipPlanes : List (CV → Rat) :=
  [fun v => v.z, fun v => v.w - v.z, fun v => 2 * v.w - v.x, fun v => 2 * v.w + v.x,
   fun v => 2 * v.w - v.y, fun v => 2 * v.w + v.y]

/-- The point at a part t of an edge. -/
def CV.along (a b : CV) (t : Rat) : CV :=
  ⟨a.x + t * (b.x - a.x), a.y + t * (b.y - a.y), a.z + t * (b.z - a.z), a.w + t * (b.w - a.w),
   List.zipWith (fun p q => p + t * (q - p)) a.of_ b.of_⟩

/-- The point where an edge meets a plane. -/
def cutEdge (f : CV → Rat) (a b : CV) : CV := a.along b (f a / (f a - f b))

/-- Clip a polygon at one plane. -/
def clipPlane (l : List CV) (f : CV → Rat) : List CV :=
  (l.zip (l.drop 1 ++ l.take 1)).flatMap (fun e =>
    let ia : Bool := 0 ≤ f e.1
    let ib : Bool := 0 ≤ f e.2
    if ia && ib then [e.2] else if ia then [cutEdge f e.1 e.2] else if ib then [cutEdge f e.1 e.2, e.2] else [])

def clipPoly (l : List CV) : List CV := clipPlanes.foldl clipPlane l

/-- Clip a line at one plane. -/
def clipEdge (e : Option (CV × CV)) (f : CV → Rat) : Option (CV × CV) :=
  match e with
  | none => none
  | some (a, b) =>
    if 0 ≤ f a && 0 ≤ f b then some (a, b)
    else if 0 ≤ f a then some (a, cutEdge f a b)
    else if 0 ≤ f b then some (cutEdge f a b, b)
    else none

def clipLine (a b : CV) : Option (CV × CV) := clipPlanes.foldl clipEdge (some (a, b))

/-- A point is inside every plane. -/
def CV.inside (v : CV) : Bool := clipPlanes.all (fun f => decide (0 ≤ f v))

/-- A vertex on the screen: position in 1/256 pixel, and what it was before the divide. -/
structure SV where
  x : Int
  y : Int
  v : CV
  deriving DecidableEq, Repr

/-- Viewport mapping (R243 stage 4), kept to 8 sub-pixel bits, rounded to nearest (log entry 18). -/
def toScreen (w h : Nat) (v : CV) : SV :=
  let px := (v.x / v.w + 1) * w / 2 * 256
  let py := (v.y / v.w + 1) * h / 2 * 256
  ⟨rneInt px.num px.den, rneInt py.num py.den, v⟩

/-- A sample of a primitive: its pixel, its depth, and the weights that interpolate perspective-correct over the vertices. -/
structure Sample where
  x : Nat
  y : Nat
  z : Nat
  of_ : List Rat
  deriving DecidableEq, Repr

/-- The sample at a pixel with some weights over vertices on the screen: depth is linear there (log entry 18: rounded once),
and the perspective-correct weights are those over w, scaled to add to 1 (R243 stage 8). -/
def sampleAt (x y : Nat) (l : List (Rat × CV)) : Sample :=
  let q := l.foldl (fun t e => t + e.1 / e.2.w) 0
  let n := ((l.head?.map (·.2.of_)).getD []).length
  { x := x, y := y, z := f32OfRat (l.foldl (fun t e => t + e.1 * (e.2.z / e.2.w)) 0),
    of_ := (List.range n).map (fun k => l.foldl (fun t e => t + e.1 / e.2.w * e.2.of_.getD k 0) 0 / q) }

/-! ## Rasterisation (stages 5 and 6) -/

/-- Twice the signed area; positive for a triangle that runs clockwise on the screen. -/
def area2 (a b c : SV) : Int := (b.x - a.x) * (c.y - a.y) - (b.y - a.y) * (c.x - a.x)

/-- An edge admits a sample: strictly inside, or on a top or left edge. -/
def edgeIn (a b p : SV) : Bool :=
  let e := area2 a b p
  0 < e || (e == 0 && (b.y < a.y || (b.y == a.y && a.x < b.x)))

/-- The pixels of a rectangle, row by row. -/
def pixelsIn (x0 y0 x1 y1 : Nat) : List (Nat × Nat) :=
  (rangeFrom y0 (y1 - y0)).flatMap (fun y => (rangeFrom x0 (x1 - x0)).map (fun x => (x, y)))

/-- A rectangle of pixels; its far edges are exclusive. -/
structure Rect where
  x0 : Nat
  y0 : Nat
  x1 : Nat
  y1 : Nat
  deriving DecidableEq, Repr

/-- Samples of a clockwise triangle inside a rectangle. -/
def rasterTri (a b c : SV) (r : Rect) : List Sample :=
  let at_ := fun (f : Int → Int → Int) (g : SV → Int) => f (f (g a) (g b)) (g c)
  let lo := fun (v : Int) => (v / 256).toNat
  let t := area2 a b c
  (pixelsIn (max r.x0 (lo (at_ min (·.x)))) (max r.y0 (lo (at_ min (·.y))))
      (min r.x1 (lo (at_ max (·.x)) + 1)) (min r.y1 (lo (at_ max (·.y)) + 1))).filterMap (fun q =>
    let p : SV := ⟨256 * q.1 + 128, 256 * q.2 + 128, a.v⟩
    if edgeIn a b p && edgeIn b c p && edgeIn c a p then
      some (sampleAt q.1 q.2 [(area2 b c p / t, a.v), (area2 c a p / t, b.v), (area2 a b p / t, c.v)])
    else none)

/-- The triangles of a fan over a polygon. -/
def fan (l : List SV) : List (SV × SV × SV) :=
  match l with
  | a :: b :: r => (((b :: r).zip r).map (fun e => (a, e.1, e.2)))
  | _ => []

/-- Samples whose coverage is open (log entry 18): `at_` gives the sample at a covered pixel from what else is open. -/
def rasterOpen (key : List Nat) (r : Rect) (at_ : Nat → Nat → Nat → Sample) : List Sample :=
  (pixelsIn r.x0 r.y0 r.x1 r.y1).filterMap (fun q =>
    let v := Config.coverage (0 :: key) q.1 q.2
    if v % 2 == 1 then some (at_ q.1 q.2 (v / 2)) else none)

/-- Samples of a primitive of which nothing is given. -/
def rasterFree (key : List Nat) (r : Rect) : List Sample :=
  rasterOpen key r (fun x y v => { x := x, y := y, z := v % 2 ^ 32, of_ := [] })

/-- Samples of a triangle after clipping, culling and rasterisation; `cull` 0 none, 1 back, 2 front. A vertex at w = 0
leaves its polygon open. -/
def rasterPoly (key : List Nat) (l : List CV) (w h cull : Nat) (cw : Bool) (r : Rect) : List Sample :=
  let poly := clipPoly l
  if poly.any (fun v => decide (v.w ≤ 0)) then rasterFree key r else
  (fan (poly.map (toScreen w h))).flatMap (fun t =>
    let s := area2 t.1 t.2.1 t.2.2
    let front := decide (0 < s) == cw
    if s == 0 || (cull == 1 && !front) || (cull == 2 && front) then []
    else if 0 < s then rasterTri t.1 t.2.1 t.2.2 r else rasterTri t.1 t.2.2 t.2.1 r)

/-- Samples of a line, clipped; its coverage is open, and where along it a sample lies (log entry 18). -/
def rasterLine (key : List Nat) (a b : CV) (r : Rect) : List Sample :=
  match clipLine a b with
  | none => []
  | some (a, b) =>
    if decide (a.w ≤ 0) || decide (b.w ≤ 0) then rasterFree key r else
    rasterOpen key r (fun x y v =>
      let t : Rat := mkRat (v % (2 ^ 32 + 1) : Nat) (2 ^ 32)
      sampleAt x y [(1 - t, a), (t, b)])

/-- Samples of a point: none outside the clip volume; else its coverage is open (log entry 18). -/
def rasterPoint (key : List Nat) (a : CV) (r : Rect) : List Sample :=
  if !a.inside then [] else if decide (a.w ≤ 0) then rasterFree key r
  else rasterOpen key r (fun x y _ => sampleAt x y [(1, a)])

/-- Samples of a primitive from the words of its vertices. -/
def rasterPrim (key : List Nat) (verts : List (List Nat)) (w h cull : Nat) (cw : Bool) (r : Rect) : List Sample :=
  match cvsOf verts with
  | some [a, b, c] => rasterPoly key [a, b, c] w h cull cw r
  | some [a, b] => rasterLine key a b r
  | some [a] => rasterPoint key a r
  | _ => rasterFree key r

/-- A varying word at a sample (R243 stage 8): the exact weighted sum, rounded once to FP32 (log entry 18); free where the
weights are open. -/
def varying (key : List Nat) (verts : List (List Nat)) (p : Sample) (i : Nat) : Nat :=
  if p.of_.isEmpty then Config.coverage ((i + 1) :: key) p.x p.y % 2 ^ 32
  else
    let terms := (p.of_.zip verts).map (fun e =>
      (numMul (.fin (decide (e.1 < 0)) e.1.num.natAbs e.1.den) (fmtF32.decode (e.2.getD i 0))).1)
    (fmtF32.ofX false (numSum terms)).1

/-! ## Depth (stage 7) -/

def f32Eq (a b : Nat) : Bool :=
  !(fmtF32.decode a).isNan && !(fmtF32.decode b).isNan && !f32Lt a b && !f32Lt b a

/-- `DEPTH_FUNC` of R250. -/
def depthPass (func z d : Nat) : Bool :=
  if func == 0 then false else if func == 1 then f32Lt z d else if func == 2 then f32Eq z d
  else if func == 3 then f32Lt z d || f32Eq z d else if func == 4 then f32Lt d z
  else if func == 5 then !f32Eq z d else if func == 6 then f32Lt d z || f32Eq z d else true

/-! ## Blending and conversion (stage 9, R245) -/

/-- Components of a colour format: component, bits, lowest bit of the pixel. -/
def fmtComps (fmt : Nat) : List (Nat × Nat × Nat) :=
  if fmt == 1 then [(0, 8, 0)]
  else if fmt == 2 then [(0, 16, 0)]
  else if fmt == 3 || fmt == 4 then [(0, 8, 0), (1, 8, 8), (2, 8, 16), (3, 8, 24)]
  else if fmt == 5 then [(0, 10, 0), (1, 10, 10), (2, 10, 20), (3, 2, 30)]
  else if fmt == 6 then [(0, 16, 0), (1, 16, 16)]
  else if fmt == 7 then [(0, 32, 0)]
  else if fmt == 9 then [(0, 32, 0), (1, 32, 32), (2, 32, 64), (3, 32, 96)]
  else [(0, 16, 0), (1, 16, 16), (2, 16, 32), (3, 16, 48)]

/-- A float format: 2 R16F, 6 RG16F, 7 R32F, 8 RGBA16F. -/
def floatFmt (fmt : Nat) : Bool := fmt == 2 || fmt == 6 || fmt == 7 || fmt == 8

/-- The largest k below 2^n with k^5 · d ≤ m · 2^200, bit by bit. -/
def fifthRootGo (m d : Nat) : Nat → Nat → Nat
  | 0, r => r
  | n + 1, r => let t := r + 2 ^ n; fifthRootGo m d n (if t ^ 5 * d ≤ m * 2 ^ 200 then t else r)

/-- The fifth root of a rational not below 0 and not above 1, to 40 bits. -/
def fifthRoot (q : Rat) : Rat := mkRat (fifthRootGo q.num.natAbs q.den 41 0 : Nat) (2 ^ 40)

/-- The twelfth power of (c + 0.055) ÷ 1.055: the fifth power of an sRGB component decoded (IEC 61966-2-1). -/
def srgbPow (c : Rat) : Rat := ((c + mkRat 55 1000) / mkRat 1055 1000) ^ 12

/-- A value lies within 0.6 of one step of the exact decoding of the 8-bit code `raw` (R245). -/
def srgbNear (raw : Nat) (y : Rat) : Bool :=
  let c : Rat := mkRat raw 255
  let b : Rat := mkRat 6 2550
  if c ≤ mkRat 4045 100000 then c / mkRat 1292 100 - b ≤ y && y ≤ c / mkRat 1292 100 + b
  else 0 ≤ y + b && srgbPow c ≤ (y + b) ^ 5 && (y - b ≤ 0 || (y - b) ^ 5 ≤ srgbPow c)

/-- sRGB decoding: open within the bound of R245 (log entry 8). -/
def srgbDecode (raw : Nat) : Nat :=
  let c : Rat := mkRat raw 255
  let v := Config.srgb raw % 2 ^ 32
  let exact := if c ≤ mkRat 4045 100000 then c / mkRat 1292 100 else fifthRoot (srgbPow c)
  match ratOfF32 v with
  | some y => if srgbNear raw y then v else f32OfRat exact
  | none => f32OfRat exact

/-- A component of a pixel read as FP32. -/
def compRead (fmt c bits raw : Nat) : Nat :=
  if fmt == 7 || fmt == 9 then raw
  else if floatFmt fmt then (fmtF32.ofNum false (fmtF16.decode raw)).1
  else if fmt == 4 && c < 3 then srgbDecode raw
  else (fmtF32.round false false raw (2 ^ bits - 1)).1

/-- UNORM conversion (R245). -/
def unorm (bits v : Nat) : Nat :=
  match fmtF32.decode v with
  | .nan _ => 0
  | .inf neg => if neg then 0 else 2 ^ bits - 1
  | .fin neg n d => if neg then 0 else if d ≤ n then 2 ^ bits - 1 else rne (n * (2 ^ bits - 1)) d

/-- How the exact sRGB code of a component compares with t / 2550, for 0 ≤ c ≤ 1 (IEC 61966-2-1): the orders of the code and of
t / 2550 on the linear part, of their twelfth and fifth powers on the other. -/
def srgbSides (c : Rat) (t : Int) : Rat × Rat :=
  let y : Rat := mkRat t 2550
  if c ≤ mkRat 31308 10000000 then (c * mkRat 1292 100, y)
  else
    let b := max 0 ((y + mkRat 55 1000) / mkRat 1055 1000)
    (c ^ 5, b ^ 12)

def srgbAtMost (c : Rat) (t : Int) : Bool := (srgbSides c t).1 ≤ (srgbSides c t).2

def srgbAtLeast (c : Rat) (t : Int) : Bool := (srgbSides c t).2 ≤ (srgbSides c t).1

/-- Codes within 0.6 of one step of the exact sRGB code (R245). -/
def srgbCodes (c : Rat) : List Nat :=
  (List.range 256).filter (fun r => srgbAtMost c (10 * (r : Int) + 6) && srgbAtLeast c (10 * (r : Int) - 6))

/-- sRGB encoding: one of the codes that the bound allows (log entry 8). -/
def srgbEncode (v : Nat) : Nat :=
  match fmtF32.decode v with
  | .nan _ => 0
  | .inf neg => if neg then 0 else 255
  | .fin neg n d =>
    if neg then 0 else if d ≤ n then 255 else
    let l := srgbCodes (mkRat n d)
    l.getD (Config.srgbPick v % max 1 l.length) 0

/-- A component of a target written from FP32. -/
def compWrite (fmt c bits v : Nat) : Nat :=
  if fmt == 7 then v
  else if floatFmt fmt then (fmtF16.ofNum false (fmtF32.decode v)).1
  else if fmt == 4 && c < 3 then srgbEncode v
  else unorm bits v

/-- One component blended (R245), each operation rounded to FP32; no flag is raised. -/
def blend (mode s sa d : Nat) : Nat :=
  let inv := (f32Sub false 0x3F800000 sa).1
  if mode == 0 then s
  else if mode == 1 then (f32Add false (f32Mul false s sa).1 (f32Mul false d inv).1).1
  else if mode == 2 then (f32Add false s (f32Mul false d inv).1).1
  else (f32Add false s d).1

/-- A fragment colour of four FP32 components written over a pixel. -/
def writePixel (fmt mode : Nat) (src : List Nat) (old : Nat) : Nat :=
  (fmtComps fmt).foldl (fun r e =>
    let (c, bits, lo) := e
    let v := compWrite fmt c bits (blend mode (src.getD c 0) (src.getD 3 0) (compRead fmt c bits (bitsOf old lo bits)))
    r + v % 2 ^ bits * 2 ^ lo) 0

/-! ## Textures (R258, R259) -/

/-- Bytes of a texel. -/
def texBytes (fmt : Nat) : Nat := if fmt == 9 then 16 else surfaceBytes fmt

/-- Tile width and height (R259). -/
def tileDims (bytes : Nat) : Nat × Nat :=
  if bytes == 1 then (256, 256) else if bytes == 2 then (256, 128) else if bytes == 4 then (128, 128)
  else if bytes == 8 then (128, 64) else (64, 64)

/-- First offending byte of a texture descriptor (R258); its reserved fields are ignored (R6). -/
def texBad (d : List Byte) : Option Nat :=
  let f := fld d 14 1
  let fmt := fld d 12 1
  if fld d 0 8 % 0x10000 != 0 then some 0
  else if fld d 8 2 == 0 || fld d 8 2 > 16384 then some 8
  else if fld d 10 2 == 0 || fld d 10 2 > 16384 then some 10
  else if fmt == 0 || fmt > 9 then some 12
  else if fld d 13 1 == 0 || fld d 13 1 > 15 then some 13
  else if bitsOf f 1 2 == 3 || bitsOf f 3 2 == 3 then some 14
  else if f % 2 == 0 && !zeros d 16 8 then some 16
  else if f % 2 == 0 && !zeros d 24 8 then some 24
  else none

def levelDim (n m : Nat) : Nat := max 1 (n / 2 ^ m)

/-- A texture descriptor as its fields say. -/
structure Tex where
  va : Nat
  w : Nat
  h : Nat
  fmt : Nat
  levels : Nat
  sparse : Bool
  filter : Nat
  addr : Nat
  lodClamp : Nat
  rmap : Nat
  fbmap : Nat
  fallback : Nat
  deriving DecidableEq, Repr

def texOf (d : List Byte) : Tex :=
  let f := fld d 14 1
  { va := fld d 0 8, w := fld d 8 2, h := fld d 10 2, fmt := fld d 12 1, levels := fld d 13 1, sparse := f % 2 == 1,
    filter := bitsOf f 1 2, addr := bitsOf f 3 2, lodClamp := bitsOf (fld d 15 1) 0 4, rmap := fld d 16 8,
    fbmap := fld d 24 8, fallback := fld d 32 16 }

def Tex.bytes (t : Tex) : Nat := texBytes t.fmt
def Tex.tw (t : Tex) : Nat := (tileDims t.bytes).1
def Tex.th (t : Tex) : Nat := (tileDims t.bytes).2

/-- The first level of the tail; `levels` where none is small enough. -/
def Tex.tail (t : Tex) : Nat :=
  ((List.range t.levels).find? (fun m => 2 * levelDim t.w m ≤ t.tw && 2 * levelDim t.h m ≤ t.th)).getD t.levels

/-- Tiles of a level before the tail. -/
def Tex.levelTiles (t : Tex) (m : Nat) : Nat := ceilDiv (levelDim t.w m) t.tw * ceilDiv (levelDim t.h m) t.th

/-- Tiles of the levels before level k. -/
def Tex.tilesBefore (t : Tex) (k : Nat) : Nat := (List.range k).foldl (fun n i => n + t.levelTiles i) 0

/-- All the tiles of a texture, the tail's included. -/
def Tex.tiles (t : Tex) : Nat := t.tilesBefore t.tail + (if t.tail < t.levels then 1 else 0)

/-- Byte of a texel in a run of blocks, `bw` to a row; 16-byte texels lie row by row, `w` to a row (R259). -/
def Tex.place (t : Tex) (w x y : Nat) : Nat :=
  if t.bytes == 16 then (y * w + x) * 16
  else
    let (bw, bh) := blockDims t.bytes
    (y / bh * ceilDiv w bw + x / bw) * 256 + (y % bh * bw + x % bw) * t.bytes

/-- Bytes of a tail level in the tail tile. -/
def Tex.tailBytes (t : Tex) (m : Nat) : Nat :=
  let (w, h) := (levelDim t.w m, levelDim t.h m)
  if t.bytes == 16 then w * h * 16 else ceilDiv w (blockDims t.bytes).1 * ceilDiv h (blockDims t.bytes).2 * 256

/-- The tile that holds a texel of a level, and the texel's byte in it (R259). -/
def Tex.texel (t : Tex) (m x y : Nat) : Nat × Nat :=
  if m < t.tail then
    (t.tilesBefore m + y / t.th * ceilDiv (levelDim t.w m) t.tw + x / t.tw, t.place t.tw (x % t.tw) (y % t.th))
  else
    (t.tilesBefore t.tail,
     (rangeFrom t.tail (m - t.tail)).foldl (fun n i => n + t.tailBytes i) 0 + t.place (levelDim t.w m) x y)

/-- A texel index under an addressing mode (R258). -/
def wrapTexel (mode : Nat) (i : Int) (n : Nat) : Nat :=
  if mode == 0 then clampIdx i n
  else if mode == 1 then (i % (n : Int)).toNat
  else
    let k := (i % (2 * n : Int)).toNat
    if k < n then k else 2 * n - 1 - k

/-- The components of a texel as FP32; those its format has not are free (log entry 7): `free c` is component c's. -/
def texelComps (fmt raw : Nat) (free : Nat → Nat) : List Nat :=
  (List.range 4).map (fun c => match (fmtComps fmt).find? (fun e => e.1 == c) with
    | some (_, bits, lo) => compRead fmt c bits (bitsOf raw lo bits)
    | none => free c % 2 ^ 32)

/-- A texel from four FP32 components (R245). -/
def texelOf (fmt : Nat) (rgba : List Nat) : Nat :=
  (fmtComps fmt).foldl (fun r e => r + compWrite fmt e.1 e.2.1 (rgba.getD e.1 0) % 2 ^ e.2.1 * 2 ^ e.2.2) 0

/-- Levels that a sample reads, from its level of detail in 1/256 (R260 step 3). -/
def Tex.sampleLevels (t : Tex) (lod : Nat) : List Nat :=
  let top := t.levels - 1
  if t.filter == 2 then
    (if lod % 256 == 0 then [min top (lod / 256)] else [min top (lod / 256), min top (lod / 256 + 1)])
  else [min top (rne lod 256)]

/-- The texels that a sample takes from a level, at a position in 1/256 texel of level 0: the one under it, or the four
around it. -/
def Tex.taps (t : Tex) (m : Nat) (x y : Int) : List (Nat × Nat) :=
  let px := x / 2 ^ m
  let py := y / 2 ^ m
  let pts := if t.filter == 0 then [(px / 256, py / 256)]
    else
      let i := (px - 128) / 256
      let j := (py - 128) / 256
      [(i, j), (i + 1, j), (i, j + 1), (i + 1, j + 1)]
  pts.map (fun p => (wrapTexel t.addr p.1 (levelDim t.w m), wrapTexel t.addr p.2 (levelDim t.h m)))

end Sys2Proof.Machine
end

