-- ==== Sys2Proof/Machine/Shader.lean ====
section
/-! DEFINITION. The Shader Array: the results of its floating-point operations (R265), the sampler with sparse residency (R258
to R261), images, buffers and private scratch (R258, R262, R263), and the run of one invocation (log entry 7). -/

namespace Sys2Proof.Machine

open Sys2Proof.Config (FpOp ShOp)

/-! ## Arithmetic (R265) -/

def shFmt (half : Bool) : Fmt := if half then fmtF16 else fmtF32

/-- The exact result of a correctly rounded operation; none for the functions with an error bound. -/
def fpExact (op : FpOp) (a b c : Num) : Option NumX :=
  match op with
  | .add => some (numSum [a, b])
  | .sub => some (numSum [a, b.neg])
  | .mul => some (numMul a b)
  | .fma =>
    let p := numMul a b
    let r := numSum [p.1, c]
    some (r.1, r.2 ||| p.2 ||| (if c.sigNan then Nf.NV else 0))
  | .div => some (numDiv a b)
  | .sqrt => some (numSqrt a)
  | .rcp => some (numDiv (.fin false 1 1) a)
  | .rsqrt => some (numRsqrt a)
  | _ => none

/-- An exact value with 200 or more correct bits, and whether it is exactly that rational. -/
abbrev Approx := Rat × Bool

/-- The natural logarithm of 2 with 400 fraction bits. -/
def ln2Fixed : Nat := (List.range 420).foldl (fun t k => t + 2 ^ 400 / ((k + 1) * 2 ^ (k + 1))) 0

/-- 2^a for a rational a; far outside every format's range where a is. -/
def exp2Of (a : Rat) : Approx :=
  let k : Int := max (-2000) (min 2000 a.floor)
  let p := pow2 k
  let f := a - a.floor
  if f == 0 then (mkRat p.1 p.2, true)
  else (ratOfNum (numExp (.fin false (f.num.natAbs * ln2Fixed) (f.den * 2 ^ 400))).1 * mkRat p.1 p.2, false)

/-- Bits of the binary logarithm of m ÷ 2^400, for 1 ≤ m ÷ 2^400 < 2. -/
def log2Bits : Nat → Nat → Nat → Nat
  | 0, _, acc => acc
  | n + 1, m, acc =>
    let q := m * m / 2 ^ 400
    if 2 ^ 401 ≤ q then log2Bits n (q / 2) (2 * acc + 1) else log2Bits n q (2 * acc)

/-- The binary logarithm of a positive rational n ÷ d. -/
def log2Of (n d : Nat) : Approx :=
  let k := ilog2 n d
  let p := pow2 k
  let f := log2Bits 240 (n * p.2 * 2 ^ 400 / (d * p.1)) 0
  ((k : Rat) + mkRat (f : Nat) (2 ^ 240), n * p.2 == d * p.1)

/-- 2¹⁰ π. -/
def trigLimit : Rat := 1024 * mkRat 314159265358979323846264338327950288419716939937510 (10 ^ 50)

/-- The sine or cosine of a finite value, from the rotation about the z axis (R289). -/
def trigOf (cosine half : Bool) (a : Nat) : Approx :=
  let w := if half then (fmtF32.ofNum false (fmtF16.decode a)).1 else a
  match expRot [0, 0, w] with
  | some m => (mkRat (m.getD (if cosine then 0 else 3) 0) (2 ^ rotBits), ratOfF32 w == some 0)
  | none => (0, false)

/-- The value of a function with an error bound, where the rule gives one: its exact value. -/
def fpApprox (half : Bool) (op : FpOp) (bits : Nat) : Option Approx :=
  match op, (shFmt half).decode bits with
  | .exp2, .fin neg n d => some (exp2Of (mkRat (finInt neg n) d))
  | .log2, .fin false n d => if n == 0 then none else some (log2Of n d)
  | .sin, .fin _ n d =>
    if ratOfNum (.fin false n d) ≤ trigLimit then some (if n == 0 then (0, true) else trigOf false half bits)
    else none
  | .cos, .fin _ n d => if ratOfNum (.fin false n d) ≤ trigLimit then some (trigOf true half bits) else none
  | _, _ => none

/-- One unit in the last place at a value. -/
def Fmt.ulp (f : Fmt) (e : Rat) : Rat :=
  let q : Int := max (if e == 0 then 1 - (f.bias : Int) else ilog2 e.num.natAbs e.den) (1 - (f.bias : Int)) - f.mb
  let p := pow2 q
  mkRat p.1 p.2

/-- A result is as near its exact value as R265 asks: below 1 ULP, or within 2⁻²¹ (2⁻⁹ in FP16). -/
def fpNear (half : Bool) (op : FpOp) (e v : Rat) : Bool :=
  let dist := if v ≤ e then e - v else v - e
  match op with
  | .sin => dist ≤ mkRat 1 (if half then 2 ^ 9 else 2 ^ 21)
  | .cos => dist ≤ mkRat 1 (if half then 2 ^ 9 else 2 ^ 21)
  | _ => dist < (shFmt half).ulp e

/-- The result of a function with an error bound: the free encoding where it is near enough, else the rounded one. NX is raised
whenever it is inexact, UF where it is tiny besides; an overflow is that of the rounded value (R198, R206). -/
def fpBounded (half : Bool) (op : FpOp) (x : Approx) (free : Nat) : NumR :=
  let f := shFmt half
  let r := f.round false (decide (x.1 < 0)) x.1.num.natAbs x.1.den
  if r.2 &&& Nf.OF != 0 then r else
  let w := free % 2 ^ f.bits
  let v := match f.decode w with
    | .fin neg n d => if fpNear half op x.1 (mkRat (finInt neg n) d) then w else r.1
    | _ => r.1
  let inexact := !(x.2 && ratOfNum (f.decode v) == x.1)
  let tiny := bitsOf v 0 (f.eb + f.mb) < 2 ^ f.mb
  (v, if inexact then Nf.NX ||| (if tiny then Nf.UF else 0) else 0)

/-- A floating-point operation (R265). A NaN operand gives the canonical NaN (R196); a result that no rule gives, with its
flags, is free (log entry 7). -/
def fpRun (half : Bool) (op : FpOp) (args : List Nat) (free : Nat) : NumR :=
  let f := shFmt half
  let x := fun i => f.decode (args.getD i 0)
  match fpExact op (x 0) (x 1) (x 2) with
  | some r => f.ofX false r
  | none =>
    if (x 0).isNan then f.ofNum false (x 0) else
    match fpApprox half op (args.getD 0 0) with
    | some e => fpBounded half op e free
    | none => (free % 2 ^ f.bits, free / 2 ^ f.bits % 64)

/-! ## Bindings (R258, R260, R261, R263) -/

/-- Whether something was read or written, and what it gave. -/
abbrev ShRes := State × List Nat × Option MemFault

/-- A free number with a place of its own. -/
def State.freeNum (s : State) (i : Nat) : Nat := Config.freeAt s.fresh i

/-- The texels that a sample takes: level, x and y. -/
def Tex.texels (t : Tex) (lod : Nat) (x y : Int) : List (Nat × Nat × Nat) :=
  (t.sampleLevels lod).flatMap (fun m => (t.taps m x y).map (fun p => (m, p.1, p.2)))

/-- Non-resident tiles among some; each residency byte is read whole (R261). -/
def State.missing (s : State) (cl : Nat) (t : Tex) : List Nat → State × List Nat × Option MemFault
  | [] => (s, [], none)
  | e :: r =>
    match s.rd cl (t.rmap + e) 1 with
    | (s, _, some f) => (s, [], some f)
    | (s, b, none) =>
      let q := s.missing cl t r
      (q.1, if bitOf (fld b 0 1) 7 then q.2.1 else e :: q.2.1, q.2.2)

/-- Set the feedback bits of some tiles, each by an indivisible OR (R260). -/
def State.feedback (s : State) (cl : Nat) (t : Tex) : List Nat → MRes
  | [] => (s, none)
  | e :: r =>
    match s.rd cl (t.fbmap + e / 8) 1 with
    | (s, _, some f) => (s, some f)
    | (s, b, none) =>
      match s.wr cl (t.fbmap + e / 8) [BitVec.ofNat 8 (putBit (fld b 0 1) (e % 8) true)] with
      | (s, some f) => (s, some f)
      | (s, none) => s.feedback cl t r

/-- Address of a texel (R259). -/
def Tex.texelVa (t : Tex) (m x y : Nat) : Nat := let p := t.texel m x y; t.va + 65536 * p.1 + p.2

/-- Read some texels as one list of components each. -/
def State.rdTexels (s : State) (cl : Nat) (t : Tex) : List (Nat × Nat × Nat) → State × List (List Nat) × Option MemFault
  | [] => (s, [], none)
  | (m, x, y) :: r =>
    match s.rd cl (t.texelVa m x y) t.bytes with
    | (s, _, some f) => (s, [], some f)
    | (s, b, none) =>
      let q := s.rdTexels cl t r
      (q.1, texelComps t.fmt (fld b 0 t.bytes) s.freeNum :: q.2.1, q.2.2)

/-- One sample (R260): four components, then 1 where the sparse-residency query reports resident. The weights of a filter are
open: what it gives is free (log entry 7). -/
def State.sample (s : State) (cl : Nat) (t : Tex) (lod : Nat) (x y : Int) : ShRes :=
  let home := (t.texel 0 (wrapTexel t.addr (x / 256) t.w) (wrapTexel t.addr (y / 256) t.h)).1
  match (if t.sparse then s.rd cl (t.rmap + home) 1 else (s, [], none)) with
  | (s, _, some e) => (s, [], some e)
  | (s, b, none) =>
    let minLod := if t.sparse && t.tail != 0 then bitsOf (fld b 0 1) 0 4 else 0
    let taps := t.texels (max lod (256 * max t.lodClamp minLod)) x y
    let tiles := (taps.map (fun p => (t.texel p.1 p.2.1 p.2.2).1)).eraseDups
    match (if t.sparse then s.missing cl t tiles else (s, [], none)) with
    | (s, _, some e) => (s, [], some e)
    | (s, [], none) =>
      match s.rdTexels cl t taps with
      | (s, _, some e) => (s, [], some e)
      | (s, [c], none) => (s.spend, c ++ [1], none)
      | (s, _, none) => (s.spend, (List.range 4).map (fun i => s.freeNum i % 2 ^ 32) ++ [1], none)
    | (s, miss, none) =>
      let r := (s.inc Od.SPARSE_FALLBACKS).feedback cl t miss
      (r.1.spend, texelComps t.fmt t.fallback r.1.freeNum ++ [0], r.2)

/-- A binding of an argument block and its `KIND` (R263). -/
def binding (args : List Byte) (i : Nat) : List Byte := slice args (64 * (i % 32)) 64

def kindOf (b : List Byte) : Nat := fld b 48 1

/-- A texel of level 0 of a storage image lies in the image. -/
def Tex.holds (t : Tex) (x y : Int) : Bool := 0 ≤ x && x < t.w && 0 ≤ y && y < t.h

/-- An access of n bytes to a buffer binding stays within it (R263). -/
def inBuffer (b : List Byte) (off n : Nat) : Bool := kindOf b == 1 && off + n ≤ fld b 8 8

/-! ## One invocation -/

/-- What an invocation runs with: its client, kernel, argument block and inputs, and its lane-slot (R262, R263). -/
structure Lane where
  cl : Nat
  k : Kernel
  args : List Byte
  inp : List Nat
  slot : Nat
  slotBytes : Nat

/-- A private access of n bytes: its address. A lane's own addresses lie in its lane-slot. -/
def Lane.privVa (l : Lane) (off : Nat) : Nat := l.slot + off % max 1 l.slotBytes

/-- A private access: its page must map with `W` = 1, for a read too (R262). -/
def State.privAt (s : State) (l : Lane) (off n : Nat) (f : State → Nat → ShRes) : ShRes :=
  match s.probe l.cl (l.privVa off) n true with
  | (s, some a, _) => (s.xlatFault l.cl a, [], some ⟨4, a⟩)
  | (s, none, _) => f s (l.privVa off)

def State.shLoad (s : State) (cl va n : Nat) : ShRes :=
  match s.rd cl va n with
  | (s, b, f) => (s, b.map (·.toNat), f)

def State.shStore (s : State) (cl va : Nat) (data : List Byte) : ShRes :=
  match s.wr cl va data with
  | (s, f) => (s, [], f)

/-- The effect of an operation: what it gives the invocation, the flags it raises, and a fault. An access to a binding of
another kind, or to a texel outside an image, reads a free value and writes nothing (log entry 7). -/
def State.shaderOp (s : State) (l : Lane) (op : ShOp) : ShRes × Nat :=
  let free := (s.spend, [s.freeNum 0], none)
  let image := fun (i : Nat) (x y : Int) (f : Tex → ShRes) =>
    let b := binding l.args i
    if kindOf b == 3 && (texOf b).holds x y then f (texOf b)
    else if kindOf b == 0 then (s, [0, 0, 0, 0], none) else (s.spend, (List.range 4).map (fun c => s.freeNum c % 2 ^ 32), none)
  match op with
  | .done => ((s, [], none), 0)
  | .fp half o args => let r := fpRun half o args (s.freeNum 0); ((s.spend, [r.1], none), r.2)
  | .fpToFp half a => let r := (shFmt (!half)).ofNum false ((shFmt half).decode a); ((s, [r.1], none), r.2)
  | .fpToInt half bits sgn a => let r := intOfNum bits sgn ((shFmt half).decode a); ((s, [r.1], none), r.2)
  | .intToFp half bits sgn a => let r := (shFmt half).ofNum false ((Elem.int bits sgn).decode a); ((s, [r.1], none), r.2)
  | .load va n => (s.shLoad l.cl va n, 0)
  | .store va data => (s.shStore l.cl va data, 0)
  | .bufLoad i off n =>
    let b := binding l.args i
    (if inBuffer b off n then s.shLoad l.cl (fld b 0 8 + off) n else (s, List.replicate n 0, none), 0)
  | .bufStore i off data =>
    let b := binding l.args i
    (if inBuffer b off data.length then s.shStore l.cl (fld b 0 8 + off) data else (s, [], none), 0)
  | .sample i lod x y =>
    let b := binding l.args i
    (if kindOf b == 2 then s.sample l.cl (texOf b) lod x y
     else if kindOf b == 0 then (s, [0, 0, 0, 0, 0], none) else free, 0)
  | .imgLoad i x y =>
    (image i x y (fun t =>
      match s.rdTexels l.cl t [(0, x.toNat, y.toNat)] with
      | (s, r, f) => (s.spend, r.headD [], f)), 0)
  | .imgStore i x y rgba =>
    (image i x y (fun t =>
      s.shStore l.cl (t.texelVa 0 x.toNat y.toNat) (toLe t.bytes (texelOf t.fmt rgba))), 0)
  | .query i =>
    let b := binding l.args i
    ((s, if kindOf b == 2 || kindOf b == 3 then [(texOf b).w, (texOf b).h, (texOf b).levels] else [0, 0, 0], none), 0)
  | .privLoad off n => (s.privAt l off n (fun s va => s.shLoad l.cl va n), 0)
  | .privStore off data => (s.privAt l off data.length (fun s va => s.shStore l.cl va data), 0)
  | .cheap _ => ((s, [], none), 0)
  | .open_ => (free, 0)

/-- How a run of an invocation ended: it is over, at a cheap point, or at an access that faults. -/
inductive LaneEnd where
  | over
  | cheap (i : Nat)
  | fault (f : MemFault)
  deriving DecidableEq, Repr

/-- A run of an invocation: the state, what its operations gave, the last first, the flags raised, and its end. -/
structure LaneRes where
  s : State
  trace : List (List Nat)
  flags : Nat
  stop : LaneEnd

/-- Run an invocation, to its end or, where `points`, to its next cheap point. -/
def State.runLane (s : State) (l : Lane) (points : Bool) (trace : List (List Nat)) (fl : Nat) : Nat → LaneRes
  | 0 => ⟨s, trace, fl, .over⟩
  | fuel + 1 =>
    match Config.shaderStep l.k.spirv l.inp trace with
    | .done => ⟨s, trace, fl, .over⟩
    | op =>
      match s.shaderOp l op with
      | ((s, r, some f), fl') => ⟨s, r :: trace, fl ||| fl', .fault f⟩
      | ((s, r, none), fl') =>
        match op, points with
        | .cheap i, true => ⟨s, r :: trace, fl ||| fl', .cheap i⟩
        | _, _ => s.runLane l points (r :: trace) (fl ||| fl') fuel

/-- Run an invocation from what it has done. A module that does nothing but declare and branch has no effect. -/
def State.runKernel (s : State) (l : Lane) (points : Bool) (trace : List (List Nat)) : LaneRes :=
  if spirvActs l.k.spirv then s.runLane l points trace 0 (Config.shaderLength l.k.spirv l.inp) else ⟨s, trace, 0, .over⟩

/-- A word that an invocation leaves: positions 0 to 3 and varyings 4 to 67 of a vertex kernel; colours 0 to 15, the depth
16 and in 17 whether it discards of a fragment kernel (log entry 7). -/
def Lane.out (l : Lane) (trace : List (List Nat)) (i : Nat) : Nat := Config.shaderOut l.k.spirv l.inp trace i % 2 ^ 32

end Sys2Proof.Machine
end

