-- ==== Sys2Proof/Machine/Raster.lean ====
section
/-! DEFINITION. Render passes in immediate and tiled organisation, the bin store, and DISPATCH (R243 to R257, R262 to
R264). -/

namespace Sys2Proof.Machine

/-! ## Descriptors (R247 to R250) -/

structure Target where
  va : Nat
  pitch : Nat
  fmt : Nat
  loadOp : Nat
  store : Bool
  clear : List Byte
  deriving DecidableEq, Repr

def targetAt (d : List Byte) (off : Nat) : Target :=
  { va := fld d off 8, pitch := fld d (off + 8) 2, fmt := fld d (off + 10) 1, loadOp := fld d (off + 11) 1 % 4,
    store := bitOf (fld d (off + 11) 1) 2, clear := slice d (off + 16) 8 }

/-- Pixel bytes of a target. -/
def Target.bytes (t : Target) : Nat := if t.fmt == 0x10 then 4 else surfaceBytes t.fmt

/-- First offending byte of a target record (R248, R249). -/
def targetBad (d : List Byte) (off width : Nat) (depth : Bool) : Option Nat :=
  let t := targetAt d off
  if t.va % 256 != 0 || t.va ≥ 2 ^ 40 then some off
  else if t.pitch < ceilDiv width (blockDims t.bytes).1 then some (off + 8)
  else if (if depth then t.fmt != 0x10 else t.fmt == 0 || t.fmt > 8) then some (off + 10)
  else if t.loadOp == 3 || fld d (off + 11) 1 ≥ 8 then some (off + 11)
  else if !zeros d (off + 12) 4 then some (off + 12)
  else none

structure Pass where
  tiled : Bool
  width : Nat
  height : Nat
  drawVa : Nat
  draws : Nat
  lane : Nat
  scratch : Nat
  color : List Target
  depth : Option Target
  deriving DecidableEq, Repr

def passOf (d : List Byte) : Pass :=
  { tiled := fld d 0 1 % 2 == 1, width := fld d 2 2, height := fld d 4 2, drawVa := fld d 8 8, draws := fld d 16 4,
    lane := fld d 20 4, scratch := fld d 24 8,
    color := (List.range (min 4 (fld d 1 1))).map (fun i => targetAt d (32 + 24 * i)),
    depth := if zeros d 128 24 then none else some (targetAt d 128) }

/-- The BIN partition that a client may use (R121, R256). -/
def State.binPart (s : State) (cl : Nat) : Option Nat :=
  (List.range 16).find? (fun p => s.partBanks p != 0 && s.get (Od.PART_ACT_KIND p) == 2 &&
    (s.get (Od.PART_ACT_OWNER p) == cl || s.get (Od.PART_ACT_OWNER p) == 0xFF))

/-- Its bytes. -/
def State.binBytes (s : State) (cl : Nat) : Option Nat := (s.binPart cl).map s.partBytes

/-- First offending byte of a pass descriptor (R247, R256). -/
def State.passBad (s : State) (cl : Nat) (d : List Byte) : Option Nat :=
  let p := passOf d
  let n := fld d 1 1
  if fld d 0 1 > 1 || (p.tiled && (s.binBytes cl).isNone) then some 0
  else if n > 4 then some 1
  else if p.width == 0 || p.width > 8192 then some 2
  else if p.height == 0 || p.height > 8192 then some 4
  else if !zeros d 6 2 then some 6
  else if p.drawVa % 64 != 0 then some 8
  else if p.draws == 0 || p.draws > 1048576 then some 16
  else if p.lane % 64 != 0 then some 20
  else if p.scratch % 0x10000 != 0 || (p.lane == 0 && p.scratch != 0) then some 24
  else
    let bad := (List.range 4).findSome? (fun i =>
      let off := 32 + 24 * i
      if i < n then targetBad d off p.width false else if zeros d off 24 then none else some off)
    bad.or ((if zeros d 128 24 then none else targetBad d 128 p.width true).or
      (if zeros d 152 40 then none else some 152))

def Draw.f1 (d : Draw) : Nat := fld d.b 1 1
def Draw.f2 (d : Draw) : Nat := fld d.b 2 1
def Draw.f3 (d : Draw) : Nat := fld d.b 3 1
def Draw.depthFunc (d : Draw) : Nat := bitsOf d.f2 0 3
def Draw.depthTest (d : Draw) : Bool := bitOf d.f2 3
def Draw.depthWrite (d : Draw) : Bool := bitOf d.f2 4
def Draw.blend (d : Draw) : Nat := bitsOf d.f3 0 2
def Draw.mask (d : Draw) : Nat := bitsOf d.f3 4 4

/-- A draw is eligible for hidden-surface removal (R253). -/
def Draw.eligible (d : Draw) : Bool :=
  !bitOf d.f1 5 && d.blend == 0 && d.depthTest && d.depthWrite && (d.depthFunc == 1 || d.depthFunc == 3)

/-- A kernel of a stage whose lane-own bytes the pass's lanes hold. -/
def State.drawKernel (s : State) (j : Job) (slot stage lane : Nat) : Option Kernel :=
  match (if slot < 16 then s.kernelFor j slot else none) with
  | some k => if k.stage == stage && k.privateBytes ≤ lane then some k else none
  | none => none

/-- The image binding i of an argument block breaks R258, or holds RGBA32F in a page with `C` = 1 (R249). Tiles are pages. -/
def State.imageBad (s : State) (cl : Nat) (args : List Byte) (i : Nat) : State × Bool :=
  let d := binding args i
  if kindOf d != 2 && kindOf d != 3 then (s, false)
  else if (texBad d).isSome then (s, true)
  else if (texOf d).fmt != 9 then (s, false)
  else (List.range (texOf d).tiles).foldl (fun (a : State × Bool) e =>
    if a.2 then a else
    match a.1.resolve cl ((texOf d).va + 65536 * e) false with
    | (s, some (_, c)) => (s, c)
    | (s, none) => (s, false)) (s, false)

/-- How a structure of a pass or of a DISPATCH is answered: a rule broken at an offset of structure n, or a memory fault there. -/
inductive PassEnd where
  | ok
  | bad (struct off : Nat)
  | mem (struct : Nat) (f : MemFault)
  deriving DecidableEq, Repr

/-- The argument block that some kernels run with, read where one of them can use it (R263; log entry 7), and its image
bindings checked; structure n names it at an offset. -/
def State.argBlock (s : State) (cl va struct off : Nat) (ks : List Kernel) : State × List Byte × PassEnd :=
  if !ks.any (fun k => spirvAccesses k.spirv) then (s, [], .ok) else
  match s.rd cl va 2048 with
  | (s, _, some f) => (s, [], .mem struct f)
  | (s, b, none) =>
    let r := (List.range 32).foldl (fun (a : State × Bool) i => if a.2 then a else a.1.imageBad cl b i) (s, false)
    (r.1, b, if r.2 then .bad struct off else .ok)

/-- First offending byte of a draw record (R246, R250, R262); its reserved fields are ignored (R6). -/
def State.drawBad (s : State) (j : Job) (p : Pass) (b : List Byte) : Option Nat :=
  let f1 := fld b 1 1
  let f2 := fld b 2 1
  let f3 := fld b 3 1
  let fs := fld b 5 1
  if fld b 0 1 > 3 then some 0
  else if bitsOf f1 2 2 == 3 then some 1
  else if p.depth.isNone && (bitOf f2 3 || bitOf f2 4) then some 2
  else if bitsOf f3 4 4 ≥ 2 ^ p.color.length then some 3
  else if (s.drawKernel j (fld b 4 1) 0 p.lane).isNone then some 4
  else if fs != 0xFF && (s.drawKernel j fs 1 p.lane).isNone then some 5
  else if fld b 12 4 == 0 then some 12
  else if f1 % 2 == 0 && !zeros b 24 8 then some 24
  else if fld b 32 8 % 256 != 0 then some 32
  else none

/-- Read and check a draw of a pass, with its argument block (R246, R250, R263). -/
def State.takeDraw (s : State) (j : Job) (p : Pass) (i : Nat) : State × Option Draw × PassEnd :=
  match s.rd j.client (p.drawVa + 64 * i) 64 with
  | (s, _, some f) => (s, none, .mem (i + 1) f)
  | (s, b, none) =>
    match s.drawBad j p b, s.drawKernel j (fld b 4 1) 0 p.lane with
    | some off, _ => (s, none, .bad (i + 1) off)
    | none, none => (s, none, .bad (i + 1) 4)
    | none, some vs =>
      let fs := s.drawKernel j (fld b 5 1) 1 p.lane
      match s.argBlock j.client (fld b 32 8) (i + 1) 32 (vs :: fs.toList) with
      | (s, args, .ok) => (s, some { index := i, b := b, vs := vs, fs := fs, args := args }, .ok)
      | (s, _, e) => (s, none, e)

/-! ## Targets in memory (R126, R248, R251, R257) -/

def pixelKey (x y : Nat) : Nat := y * 8192 + x

/-- Address of a pixel of a target (R248). -/
def Target.pixelVa (t : Target) (x y : Nat) : Nat :=
  let (bw, bh) := blockDims t.bytes
  t.va + (y / bh * t.pitch + x / bw) * 256 + (y % bh * bw + x % bw) * t.bytes

/-- Row pieces of a rectangle of a target, each within one block: x, y and width. -/
def Target.pieces (t : Target) (r : Rect) : List (Nat × Nat × Nat) :=
  let bw := (blockDims t.bytes).1
  (rangeFrom r.y0 (r.y1 - r.y0)).flatMap (fun y =>
    (rangeFrom (r.x0 / bw) (ceilDiv r.x1 bw - r.x0 / bw)).map (fun b =>
      (max r.x0 (b * bw), y, min r.x1 (b * bw + bw) - max r.x0 (b * bw))))

/-- Read the pixels of a rectangle of a target. -/
def State.rdPixels (s : State) (cl : Nat) (t : Target) (r : Rect) : State × Map Nat × Option MemFault :=
  (t.pieces r).foldl (fun (a : State × Map Nat × Option MemFault) q =>
    if a.2.2.isSome then a else
    match a.1.rd cl (t.pixelVa q.1 q.2.1) (q.2.2 * t.bytes) with
    | (s, _, some f) => (s, a.2.1, some f)
    | (s, b, none) =>
      (s, (List.range q.2.2).foldl (fun m i => mset m (pixelKey (q.1 + i) q.2.1) (fld b (i * t.bytes) t.bytes)) a.2.1, none))
    (s, [], none)

/-- The clear byte of a target whose `CLEAR` pixel repeats one byte (R257). -/
def Target.clearByte (t : Target) : Option Byte :=
  if t.loadOp != 2 then none
  else match t.clear.take t.bytes with
    | b :: r => if r.all (· == b) then some b else none
    | [] => none

/-- Write the whole blocks that meet a rectangle of a target (R257); a pixel that `px` does not hold is free. -/
def State.wrBlocks (s : State) (cl : Nat) (t : Target) (r : Rect) (px : Nat → Nat → Option Nat) : MRes :=
  let (bw, bh) := blockDims t.bytes
  (rangeFrom (r.y0 / bh) (ceilDiv r.y1 bh - r.y0 / bh)).foldl (fun (a : MRes) by_ =>
    (rangeFrom (r.x0 / bw) (ceilDiv r.x1 bw - r.x0 / bw)).foldl (fun (a : MRes) bx =>
      if a.2.isSome then a else
      let row := fun (y : Nat) => (rangeFrom (bx * bw) bw).flatMap (fun x =>
        toLe t.bytes ((px x y).getD (a.1.freeNum (pixelKey x y) % 2 ^ (8 * t.bytes))))
      a.1.spend.wrClear cl (t.pixelVa (bx * bw) (by_ * bh)) ((rangeFrom (by_ * bh) bh).flatMap row) t.clearByte) a) (s, none)

/-- Some memory holds unspecified content (R251): free bytes where it can be written. -/
def State.wrFree (s : State) (cl va n : Nat) : State :=
  match s.probe cl va n true with
  | (s, none, _) => (s.wr cl va (s.freeBytes n)).1.spend
  | (s, some _, _) => s

/-- The content of a rectangle of a target is left unspecified. -/
def State.scramble (s : State) (cl : Nat) (t : Target) (r : Rect) : State :=
  (t.pieces r).foldl (fun s q => s.wrFree cl (t.pixelVa q.1 q.2.1) (q.2.2 * t.bytes)) s

/-! ## Kernels of a draw (R262) -/

/-- The lane on which an invocation of a draw runs: its core, wave slot and lane in the wave are open. -/
def State.drawLane (s : State) (cl : Nat) (p : Pass) (d : Draw) (k : Kernel) (fragment : Bool) (inp : List Nat) : Lane :=
  let slot := s.freeNum 0 % 16 * 32 + (if fragment then 16 else 0) + s.freeNum 1 % 16
  { cl := cl, k := k, args := d.args, inp := inp, slot := p.scratch + (slot * 64 + s.freeNum 2 % 64) * p.lane,
    slotBytes := p.lane }

/-- What the fragment kernel of a fragment leaves: whether it discards, its depth where it writes one, and its colours; nothing
of a draw without one. -/
structure Shaded where
  discard : Bool
  depth : Option Nat
  color : List Nat
  deriving DecidableEq, Repr

/-- A run of fragments: the state, the flags raised, and the draw that faulted. -/
structure FragRes where
  s : State
  flags : Nat
  fault : Option (Nat × MemFault)

/-- Run the fragment kernel of a fragment (R243 stage 8). -/
def State.shadeFrag (s : State) (cl : Nat) (p : Pass) (f : Frag) : FragRes × Shaded :=
  match f.draw.fs with
  | none => (⟨s, 0, none⟩, { discard := false, depth := none, color := [] })
  | some k =>
    let l := s.drawLane cl p f.draw k true f.inp
    let r := s.spend.runKernel l false []
    let out := l.out r.trace
    (⟨r.s, r.flags, match r.stop with
        | .fault e => some (f.draw.index + 1, e)
        | _ => none⟩,
     { discard := spirvDiscards k.spirv && out 17 % 2 == 1, depth := if spirvMode k.spirv 12 then some (out 16) else none,
       color := (List.range 16).map out })

/-! ## Pixels of the targets while fragments are shaded -/

/-- Pixels at hand, by target (colours in order, then depth), and those written. -/
structure Buf where
  px : List (Map Nat)
  dirty : List (Nat × Nat)
  deriving DecidableEq, Repr

def Buf.get (b : Buf) (t k : Nat) : Nat := mgetD (b.px.getD t []) k 0

def Buf.put (b : Buf) (t k v : Nat) : Buf :=
  { px := b.px.mapIdx (fun i m => if i == t then mset m k v else m), dirty := (t, k) :: b.dirty }

/-- Targets of a pass: colours, then depth. -/
def Pass.targets (p : Pass) : List Target := p.color ++ p.depth.toList

/-- A fragment that passed its depth test, and what its kernel left where it has run. -/
structure Hit where
  frag : Frag
  /-- subject to hidden-surface removal -/
  hsr : Bool
  out : Option Shaded
  deriving DecidableEq, Repr

/-- Pixels and hits while fragments take their depth tests. -/
structure Walk where
  r : FragRes
  buf : Buf
  hits : List Hit

/-- The depth test and depth write of one fragment (R243 stage 7), in submission order (R244). One under hidden-surface removal
is decided by its rasterised depth and shaded later (R253, R254); another's kernel runs once its test passes, or before it
where it writes depth. Whether a discarded fragment still writes its depth is open (log entry 18). -/
def Walk.test (cl : Nat) (p : Pass) (w : Walk) (f : Frag) : Walk :=
  if w.r.fault.isSome then w else
  let t := p.color.length
  let k := pixelKey f.x f.y
  let pass := fun (z : Nat) => !f.draw.depthTest || depthPass f.draw.depthFunc z (w.buf.get t k)
  let write := fun (z : Nat) (b : Buf) => if f.draw.depthWrite then b.put t k z else b
  if p.tiled && f.draw.eligible then
    if pass f.z then { w with buf := write f.z w.buf, hits := w.hits ++ [⟨f, true, none⟩] } else w
  else
    let late := f.draw.fs.any (fun q => spirvMode q.spirv 12)
    if !late && !pass f.z then w else
    let (r, o) := w.r.s.shadeFrag cl p f
    let keep := r.s.freeNum 0 % 2 == 1
    let r := { r with s := r.s.spend, flags := w.r.flags ||| r.flags }
    if r.fault.isSome then { w with r := r }
    else
      let z := o.depth.getD f.z
      if late && !pass z then { w with r := r }
      else { r := r, buf := if o.discard && !keep then w.buf else write z w.buf, hits := w.hits ++ [⟨f, false, some o⟩] }

/-- A later fragment replaces what this one writes at its pixel (R253; log entry 37): every colour it writes, or, where it
writes none, its depth. -/
def Hit.replacedBy (a b : Hit) : Bool :=
  a.frag.x == b.frag.x && a.frag.y == b.frag.y && !(b.out.any (·.discard)) &&
    (if a.frag.draw.mask == 0 then b.frag.draw.depthWrite
     else b.frag.draw.fs.isSome && b.frag.draw.blend == 0 && (a.frag.draw.mask &&& b.frag.draw.mask) == a.frag.draw.mask)

/-- Blend a shaded fragment into the colour targets (R243 stage 9). -/
def Buf.blend (p : Pass) (b : Buf) (f : Frag) (o : Shaded) : Buf :=
  if o.discard || o.color.isEmpty then b else
  let k := pixelKey f.x f.y
  (p.color.zipIdx).foldl (fun b e =>
    if bitOf f.draw.mask e.2 then
      b.put e.2 k (writePixel e.1.fmt f.draw.blend ((List.range 4).map (fun c => o.color.getD (4 * e.2 + c) 0)) (b.get e.2 k))
    else b) b

/-- Shade the hits in submission order: those that hidden-surface removal takes out are not shaded. -/
def colourHits (cl : Nat) (p : Pass) (w : FragRes × Buf) : List Hit → FragRes × Buf
  | [] => w
  | h :: r =>
    if w.1.fault.isSome then w else
    match h.out with
    | some o => colourHits cl p (w.1, w.2.blend p h.frag o) r
    | none =>
      if r.any h.replacedBy then colourHits cl p w r
      else
        let (q, o) := w.1.s.shadeFrag cl p h.frag
        let q := { q with flags := w.1.flags ||| q.flags }
        colourHits cl p (q, if q.fault.isSome then w.2 else w.2.blend p h.frag o) r

/-- Shade fragments over pixels at hand. -/
def State.shadeOver (s : State) (cl : Nat) (p : Pass) (b : Buf) (l : List Frag) : FragRes × Buf :=
  let w := l.foldl (Walk.test cl p) { r := ⟨s, 0, none⟩, buf := b, hits := [] }
  colourHits cl p (w.r, w.buf) w.hits

/-! ## Immediate mode (R252) -/

/-- The pixel of each target that a fragment reads: the depth where it tests, a colour where it blends. -/
def State.rdPixel (s : State) (cl : Nat) (p : Pass) (f : Frag) : State × Buf × Option MemFault :=
  let r : Rect := ⟨f.x, f.y, f.x + 1, f.y + 1⟩
  p.targets.zipIdx.foldl (fun (a : State × Buf × Option MemFault) e =>
    let used := if e.2 == p.color.length then f.draw.depthTest else bitOf f.draw.mask e.2 && f.draw.blend != 0
    if a.2.2.isSome then a
    else if !used then (a.1, { a.2.1 with px := a.2.1.px ++ [[]] }, none)
    else
      let q := a.1.rdPixels cl e.1 r
      (q.1, { a.2.1 with px := a.2.1.px ++ [q.2.1] }, q.2.2)) (s, { px := [], dirty := [] }, none)

/-- A fragment goes straight to the targets in memory. -/
def State.directFrag (cl : Nat) (p : Pass) (a : FragRes) (f : Frag) : FragRes :=
  if a.fault.isSome then a else
  match a.s.rdPixel cl p f with
  | (s, _, some e) => { a with s := s, fault := some (f.draw.index + 1, e) }
  | (s, b, none) =>
    let (r, b) := s.shadeOver cl p b [f]
    let r := { r with flags := a.flags ||| r.flags }
    if r.fault.isSome then r else
    b.dirty.reverse.foldl (fun (r : FragRes) d =>
      match r.fault, p.targets[d.1]? with
      | none, some t =>
        let q := r.s.wr cl (t.pixelVa f.x f.y) (toLe t.bytes (b.get d.1 d.2))
        { r with s := q.1, fault := q.2.map (fun e => (f.draw.index + 1, e)) }
      | _, _ => r) r

/-- The area of a pass. -/
def Pass.whole (p : Pass) : Rect := ⟨0, 0, p.width, p.height⟩

/-- What `LOAD_OP` does to a target in memory at the start of an immediate pass (R251). -/
def State.openTarget (s : State) (cl : Nat) (p : Pass) (t : Target) : MRes :=
  if t.loadOp == 1 then let r := s.rdPixels cl t p.whole; (r.1, r.2.2)
  else if t.loadOp == 2 then
    let (bw, bh) := blockDims t.bytes
    let x := p.width / bw * bw
    let y := p.height / bh * bh
    -- whole blocks under their clear code, then what lies beside and below them (R257)
    (t.pieces ⟨x, 0, p.width, y⟩ ++ t.pieces ⟨0, y, p.width, p.height⟩).foldl (fun (a : MRes) q =>
      if a.2.isSome then a
      else a.1.wr cl (t.pixelVa q.1 q.2.1) (List.replicate q.2.2 (t.clear.take t.bytes)).flatten)
      (s.wrBlocks cl t ⟨0, 0, x, y⟩ (fun _ _ => some (fld t.clear 0 t.bytes)))
  else (s.scramble cl t p.whole, none)

/-! ## Tiled mode (R253, R255) -/

def binRect (p : Pass) (b : Nat × Nat) : Rect :=
  ⟨32 * b.1, 32 * b.2, min p.width (32 * b.1 + 32), min p.height (32 * b.2 + 32)⟩

def Frag.bin (f : Frag) : Nat × Nat := (f.x / 32, f.y / 32)

/-- The bins of a pass, row by row. -/
def Pass.bins (p : Pass) : List (Nat × Nat) :=
  (List.range (ceilDiv p.height 32)).flatMap (fun y => (List.range (ceilDiv p.width 32)).map (fun x => (x, y)))

/-- The pixels of a bin of a target before it is shaded: reloaded where a partial render wrote the bin, else as `LOAD_OP`
says (R251, R255). -/
def State.loadBin (s : State) (cl : Nat) (t : Target) (r : Rect) (written : Bool) : State × Map Nat × Option MemFault :=
  if written || t.loadOp == 1 then s.rdPixels cl t r
  else
    let px := pixelsIn r.x0 r.y0 r.x1 r.y1
    let v := fun (q : Nat × Nat) => if t.loadOp == 2 then fld t.clear 0 t.bytes
      else s.freeNum (pixelKey q.1 q.2) % 2 ^ (8 * t.bytes)
    (s.spend, px.foldl (fun m q => mset m (pixelKey q.1 q.2) (v q)) [], none)

/-- Load a bin of every target. -/
def State.loadBins (s : State) (cl : Nat) (p : Pass) (r : Rect) (written : Bool) : State × Buf × Option MemFault :=
  p.targets.foldl (fun (a : State × Buf × Option MemFault) t =>
    if a.2.2.isSome then a else
    let q := a.1.loadBin cl t r written
    (q.1, { a.2.1 with px := a.2.1.px ++ [q.2.1] }, q.2.2)) (s, { px := [], dirty := [] }, none)

/-- Write a bin of every target: in the pass's last render a target with `STORE` 0 is left unspecified (R251, R255). -/
def State.storeBins (s : State) (cl : Nat) (p : Pass) (r : Rect) (last : Bool) (b : Buf) : MRes :=
  p.targets.zipIdx.foldl (fun (a : MRes) e =>
    if a.2.isSome then a
    else if e.1.store || !last then a.1.wrBlocks cl e.1 r (fun x y => mget (b.px.getD e.2 []) (pixelKey x y))
    else (a.1.scramble cl e.1 r, none)) (s, none)

/-- Shade a bin in its bin buffer (R253). -/
def State.shadeBin (s : State) (cl : Nat) (p : Pass) (w : PassRun) (b : Nat × Nat) : FragRes :=
  let r := binRect p b
  match s.loadBins cl p r (w.written.contains b) with
  | (s, _, some f) => ⟨s, 0, some (0, f)⟩
  | (s, buf, none) =>
    let (q, buf) := s.shadeOver cl p buf (w.frags.filter (fun f => f.bin == b))
    if q.fault.isSome then q else
    let z := q.s.storeBins cl p r w.last buf
    { q with s := z.1, fault := z.2.map (fun f => (0, f)) }

/-- Bytes of the 16 bin buffers (R255). -/
def Pass.binBase (p : Pass) : Nat :=
  16 * 1024 * ((p.color.foldl (fun n t => n + t.bytes) 0) + (if p.depth.isSome then 4 else 0))

/-- Bins that the fragments of a primitive meet. -/
def binsOf (l : List Frag) : List (Nat × Nat) := (l.map Frag.bin).eraseDups

/-- Bin store bytes used by some primitives and primitive–bin pairs (R255). -/
def Pass.used (p : Pass) (prims pairs : Nat) : Nat := p.binBase + 48 * prims + 4 * pairs

/-- The BIN partition holds binned primitives and bin buffers, whose layout is open: its bytes are free (log entry 19). -/
def State.scrambleBins (s : State) (cl used : Nat) : State :=
  match s.binPart cl with
  | some n => if used == 0 then s else (s.wrPart n 0 (s.freeBytes (s.partBytes n))).spend
  | none => s

/-! ## Primitives (R243, R244) -/

/-- Vertex numbers of the primitives of `n` vertices (R243 stage 1, R250 `TOPO`). -/
def primsOf (topo n : Nat) : List (List Nat) :=
  if topo == 0 then (List.range (n / 3)).map (fun i => [3 * i, 3 * i + 1, 3 * i + 2])
  else if topo == 1 then (List.range (n - 2)).map (fun i => if i % 2 == 0 then [i, i + 1, i + 2] else [i + 1, i, i + 2])
  else if topo == 2 then (List.range (n / 2)).map (fun i => [2 * i, 2 * i + 1])
  else (List.range n).map (fun i => [i])

/-- The vertex or index numbers of a draw: read where it is indexed, with `BASE_VERTEX` added modulo 2^32. -/
def State.drawIndices (s : State) (cl : Nat) (b : List Byte) : State × List Nat × Option MemFault :=
  let n := fld b 8 4
  let first := fld b 16 4
  if fld b 1 1 % 2 == 0 then (s, (List.range n).map (fun i => (first + i) % 2 ^ 32), none)
  else
    let sz := if bitOf (fld b 1 1) 1 then 4 else 2
    (List.range n).foldl (fun (a : State × List Nat × Option MemFault) i =>
      if a.2.2.isSome then a else
      match a.1.rd cl (fld b 24 8 + (first + i) * sz) sz with
      | (s, _, some f) => (s, a.2.1, some f)
      | (s, v, none) => (s, a.2.1 ++ [(le v + fld b 20 4) % 2 ^ 32], none)) (s, [], none)

/-- The rectangle of a draw: the pass area within its scissor. -/
def Pass.area (p : Pass) (b : List Byte) : Rect :=
  ⟨fld b 40 2, fld b 42 2, min p.width (fld b 44 2), min p.height (fld b 46 2)⟩

/-- Run the vertex kernel of a draw once for each distinct index of an instance (R244): the words of each. -/
def State.runVertices (s : State) (cl : Nat) (p : Pass) (d : Draw) (inst : Nat) : List Nat → FragRes × Map (List Nat)
  | [] => (⟨s, 0, none⟩, [])
  | v :: r =>
    let l := s.drawLane cl p d d.vs false [d.index, inst, v]
    let q := s.spend.runKernel l false []
    match q.stop with
    | .fault e => (⟨q.s, q.flags, some (d.index + 1, e)⟩, [])
    | _ =>
      let n := q.s.runVertices cl p d inst r
      ({ n.1 with flags := q.flags ||| n.1.flags }, mset n.2 v ((List.range 68).map (l.out q.trace)))

/-- The fragments of a primitive: its kernel is given the draw, the instance, the primitive, the pixel, the depth, the
interpolated varyings, and the words of the vertices. -/
def Pass.fragsOf (p : Pass) (d : Draw) (inst n : Nat) (verts : List (List Nat)) : List Frag :=
  let key := [d.index, inst, n]
  (rasterPrim (key ++ verts.flatten) verts p.width p.height (bitsOf d.f1 2 2) (bitOf d.f1 4) (p.area d.b)).map (fun q =>
    { draw := d, x := q.x, y := q.y, z := q.z,
      inp := key ++ [q.x, q.y, q.z] ++ (List.range 64).map (fun i => varying (key ++ verts.flatten) verts q (4 + i)) ++
        verts.flatten })

/-- The primitives of an instance of a draw, each as its fragments (R243 stages 1 to 6). -/
def State.instancePrims (s : State) (cl : Nat) (p : Pass) (d : Draw) (idx : List Nat) (inst : Nat) :
    FragRes × List (List Frag) :=
  let r := s.runVertices cl p d inst idx.eraseDups
  if r.1.fault.isSome then (r.1, []) else
  (r.1, (primsOf (fld d.b 0 1) idx.length).mapIdx (fun n t =>
    p.fragsOf d inst n (t.map (fun i => mgetD r.2 (idx.getD i 0) []))))

/-- The primitives of all instances of a draw, in order. -/
def State.drawPrims (s : State) (cl : Nat) (p : Pass) (d : Draw) : FragRes × List (List Frag) :=
  match s.drawIndices cl d.b with
  | (s, _, some f) => (⟨s, 0, some (d.index + 1, f)⟩, [])
  | (s, idx, none) =>
    (List.range (fld d.b 12 4)).foldl (fun (a : FragRes × List (List Frag)) n =>
      if a.1.fault.isSome then a else
      let q := a.1.s.instancePrims cl p d idx n
      ({ q.1 with flags := a.1.flags ||| q.1.flags }, a.2 ++ q.2)) (⟨s, 0, none⟩, [])

/-! ## A pass, piece by piece -/

/-- What one piece of a pass left: it goes on, stands at a pre-emption point (R184, R252), is over, or failed. -/
inductive PassGo where
  | go
  | point
  | over
  | fail (e : PassEnd)
  deriving DecidableEq, Repr

/-- A piece of a pass: the state, its progress, the flags raised, and where it stands. -/
structure PassRes where
  s : State
  w : PassRun
  flags : Nat
  go : PassGo

/-- Pixels and fragments have been worked on; a fault fails the pass at its draw. -/
def FragRes.next (r : FragRes) (w : PassRun) (g : PassGo) : PassRes :=
  ⟨r.s, w, r.flags, match r.fault with
    | some (st, f) => .fail (.mem st f)
    | none => g⟩

/-- The targets are opened (R251): in immediate mode in memory, in tiled mode bin by bin. -/
def PassRun.open_ (cl : Nat) (p : Pass) (s : State) (w : PassRun) : PassRes :=
  let w := { w with ready := true, used := if p.tiled then p.used 0 0 else 0 }
  if p.tiled then ⟨s.set Od.BIN_PEAK (max (s.get Od.BIN_PEAK) w.used), w, 0, .go⟩
  else
    let r := p.targets.foldl (fun (a : MRes) t => if a.2.isSome then a else a.1.openTarget cl p t) (s, none)
    FragRes.next ⟨r.1, 0, r.2.map (fun f => (0, f))⟩ w .go

/-- The next bin of a render is shaded; its end is a pre-emption point. A partial render counts, and empties the store
(R255). -/
def PassRun.binStep (cl : Nat) (p : Pass) (s : State) (w : PassRun) (b : Nat × Nat) (rest : List (Nat × Nat)) : PassRes :=
  let r := s.shadeBin cl p w b
  let w := { w with bins := rest, written := if w.last then w.written else b :: w.written.filter (· != b) }
  if !rest.isEmpty then r.next w .point
  else if w.last then r.next w .over
  else { r with s := r.s.when r.fault.isNone (·.inc Od.PARTIAL_RENDERS) }.next
    { w with frags := [], prims := 0, pairs := 0, used := p.used 0 0 } .point

/-- The next primitive of a draw: shaded at once in immediate mode, else binned, after a partial render where it does not fit
(R252, R253, R255). -/
def PassRun.primStep (cl : Nat) (p : Pass) (s : State) (w : PassRun) (l : List Frag) (rest : List (List Frag)) : PassRes :=
  if p.tiled then
    let q := binsOf l
    let used := p.used (w.prims + 1) (w.pairs + q.length)
    if l.isEmpty then ⟨s, { w with todo := rest }, 0, .go⟩
    else if w.prims != 0 && used > (s.binBytes cl).getD 0 then ⟨s, { w with bins := binsOf w.frags }, 0, .go⟩
    else
      ⟨s.set Od.BIN_PEAK (max (s.get Od.BIN_PEAK) used),
       { w with todo := rest, frags := w.frags ++ l, prims := w.prims + 1, pairs := w.pairs + q.length, used := used }, 0, .go⟩
  else
    (l.foldl (State.directFrag cl p) ⟨s, 0, none⟩).next { w with todo := rest, since := w.since + 1 }
      (if (w.since + 1) % 4096 == 0 && !rest.isEmpty then .point else .go)

/-- A draw begins: its record is read and checked, and its primitives are formed. -/
def PassRun.drawStep (j : Job) (p : Pass) (s : State) (w : PassRun) : PassRes :=
  match s.takeDraw j p w.draw with
  | (s, some d, _) =>
    let r := s.drawPrims j.client p d
    r.1.next { w with inDraw := true, todo := r.2, since := 0 } .go
  | (s, none, e) => ⟨s, w, 0, .fail e⟩

/-- One piece of a pass. -/
def PassRun.step (j : Job) (p : Pass) (s : State) (w : PassRun) : PassRes :=
  if !w.ready then w.open_ j.client p s else
  match w.bins, w.todo with
  | b :: rest, _ => w.binStep j.client p s b rest
  | [], l :: rest => w.primStep j.client p s l rest
  | [], [] =>
    if w.inDraw then
      let w := { w with draw := w.draw + 1, inDraw := false }
      ⟨s, w, 0, if p.tiled then .go else if w.draw < p.draws then .point else .over⟩
    else if w.draw < p.draws then w.drawStep j p s
    else ⟨s, { w with bins := p.bins, last := true }, 0, .go⟩

/-- More pieces than a run of any pass has: the descriptor's counts bound them far below. -/
def runFuel : Nat := 2 ^ 192

/-- Run a pass from where it stands, past `cut` more pre-emption points, or to its end: points passed are counted. -/
def PassRun.run (j : Job) (p : Pass) : Nat → State → PassRun → Nat → Option Nat → PassRes × Nat
  | 0, s, w, n, _ => (⟨s, w, 0, .point⟩, n)
  | fuel + 1, s, w, n, cut =>
    if cut == some 0 then (⟨s, w, 0, .point⟩, n) else
    let r := w.step j p s
    let again := fun (n : Nat) (cut : Option Nat) =>
      let q := PassRun.run j p fuel r.s r.w n cut
      ({ q.1 with flags := r.flags ||| q.1.flags }, q.2)
    match r.go with
    | .go => again n cut
    | .point => again (n + 1) (cut.map (· - 1))
    | _ => (r, n)

def PassRun.start (d : List Byte) : PassRun :=
  { desc := d, ready := false, draw := 0, inDraw := false, todo := [], since := 0, frags := [], prims := 0, pairs := 0,
    bins := [], last := false, written := [], used := 0 }

/-! ## Work that stands at a point -/

def State.workOf (s : State) (id : JobId) : Option RasterWork := (s.raster.works.find? (fun e => e.1 == id)).map (·.2)

/-- Keep a job's work; that of jobs that have ended goes. -/
def State.putWork (s : State) (id : JobId) (w : RasterWork) : State :=
  { s with raster := { s.raster with
    works := (id, w) :: s.raster.works.filter (fun e => e.1 != id && s.qs.jobs.any (fun j => j.id == e.1 && j.phase == .started)) } }

def State.dropWork (s : State) (id : JobId) : State :=
  { s with raster := { s.raster with works := s.raster.works.filter (fun e => e.1 != id) } }

/-- The last targets of an immediate pass with `STORE` 0 are left unspecified, and the pass counts (R251, R271). -/
def State.closePass (s : State) (cl : Nat) (p : Pass) : State :=
  let s := if p.tiled then s else p.targets.foldl (fun s t => if t.store then s else s.scramble cl t p.whole) s
  s.set Od.PASSES (min (2 ^ 48 - 1) (s.get Od.PASSES + 1))

/-- A run of a render pass, from its checked descriptor or from where it stands, to a pre-emption point or its end (R251 to
R257): the state, its flags, its end, and where it stands if it has not ended. -/
def State.passRun (s : State) (j : Job) (w : PassRun) (cut : Option Nat) : State × Nat × PassEnd × Option (PassRun × Nat) :=
  let p := passOf w.desc
  let (r, n) := PassRun.run j p runFuel s w j.done cut
  let s := if p.tiled then r.s.scrambleBins j.client r.w.used else r.s
  match r.go with
  | .over => (s.closePass j.client p, r.flags, .ok, none)
  | .fail e => (s, r.flags, e, none)
  | _ => (s, r.flags, .ok, some (r.w, n))

/-- A job gives up the bin store: its pass has ended, or it takes another raster command (R256). -/
def State.binRelease (s : State) (id : JobId) : State :=
  if s.raster.binHolder == some id then { s with raster := { s.raster with binHolder := none } } else s

/-- A run of a render pass, and what becomes of its command. -/
def State.renderPass (s : State) (j : Job) (w : PassRun) (cut : Option Nat) : State :=
  match s.passRun j w cut with
  | (s, fl, .ok, some (w, n)) => ((s.addFlags j.id fl).putWork j.id (.pass w)).standAt j.id n (0, 0)
  | (s, fl, .ok, none) => ((s.dropWork j.id).binRelease j.id).endCmd j.id St.OK [] fl
  | (s, fl, .bad st off, _) => (((s.dropWork j.id).binRelease j.id).addFlags j.id fl).faultCmd j.id 2 st off 0
  | (s, fl, .mem st f, _) => (((s.dropWork j.id).binRelease j.id).addFlags j.id fl).faultCmdMem j.id f st 0

/-! ## The bin store (R256) -/

/-- The store is held by another job. -/
def State.binTaken (s : State) (id : JobId) : Bool := s.binHeld && s.raster.binHolder != some id

/-- A tiled pass takes the store and runs, or waits for it at its command: one that had it already goes before those that
wait. -/
def State.tiledPass (s : State) (j : Job) (w : PassRun) (cut : Option Nat) : State :=
  if s.binTaken j.id || (j.done == 0 && !s.binWaiting.isEmpty) then
    let q := if j.done == 0 then s.binWaiting ++ [j.id] else j.id :: s.binWaiting
    let s := { s with raster := { s.raster with binQueue := q } }
    (s.putWork j.id (.pass w)).putJob { j with blocked := true }
  else ({ s with raster := { s.raster with binHolder := some j.id } }).renderPass j w cut

/-- A render pass whose descriptor has been checked. -/
def State.goPass (s : State) (j : Job) (w : PassRun) (cut : Option Nat) : State :=
  if (passOf w.desc).tiled then s.tiledPass j w cut else s.renderPass j w cut

/-- RENDER_PASS: payload and descriptor are checked where the command begins; it goes on where it stands (R246, R247). -/
def State.renderPassCmd (cut : Option Nat) (s : State) (j : Job) (c : List Byte) : State :=
  match (if j.done == 0 then none else s.workOf j.id) with
  | some (.pass w) => s.goPass j w cut
  | _ =>
    let s := s.binRelease j.id
    if fld c 24 8 % 64 != 0 then s.faultCmd j.id 2 0 24 0
    else if !zeros c 32 32 then s.faultCmd j.id 2 0 32 0
    else match s.rd j.client (fld c 24 8) 192 with
      | (s, _, some f) => s.faultCmdMem j.id f 0 0
      | (s, d, none) =>
        match s.passBad j.client d with
        | some off => s.faultCmd j.id 2 0 off 0
        | none => s.goPass j (PassRun.start d) cut

/-- The first waiting pass takes the store, once it is free and the unit may take its command, and runs. -/
def State.binAcquire (s : State) (id : JobId) (cut : Option Nat) : State :=
  match s.binWaiting, s.job id, s.workOf id with
  | h :: rest, some j, some (.pass w) =>
    let j := { j with blocked := false }
    if h != id || s.binHeld || !s.mayIssue j then s else
    let s := { s with raster := { s.raster with binHolder := some id, binQueue := rest } }
    ((s.putJob j).begin_ j).renderPass j w cut
  | _, _, _ => s

/-! ## DISPATCH (R246, R262 to R264) -/

/-- First offending field of a DISPATCH (R246, R262). -/
def State.dispatchBad (s : State) (j : Job) (c : List Byte) : Option Nat :=
  let k := fld c 24 1
  match (if k < 16 then s.kernelFor j k else none) with
  | none => some 24
  | some x =>
    if x.stage != 2 then some 24
    else if !zeros c 25 3 then some 25
    else if fld c 28 4 == 0 then some 28
    else if fld c 32 4 == 0 then some 32
    else if fld c 36 4 == 0 then some 36
    else if fld c 40 8 % 256 != 0 then some 40
    else if fld c 48 8 % 0x10000 != 0 then some 48
    else if !zeros c 56 8 then some 56
    else none

/-- Workgroups resident on one core (R262). -/
def Kernel.resident (k : Kernel) : Nat :=
  let waves := ceilDiv k.wgLanes 64
  let regs := if k.vregs == 0 then 16 else 1024 / (k.vregs * waves)
  let sh := if k.sharedBytes == 0 then 16 else 65536 / k.sharedBytes
  min (min regs sh) 16

/-- Bytes of a lane-slot of a DISPATCH. -/
def Kernel.slotBytes (k : Kernel) : Nat := ceilDiv k.privateBytes 64 * 64

/-- The workgroup of a number in launch order: x fastest, then y, then z. -/
def groupAt (gx gy n : Nat) : List Nat := [n % gx, n / gx % gy, n / (gx * gy)]

/-- Lane l of a workgroup on its core, in its residency position (R262). -/
def groupLane (cl : Nat) (k : Kernel) (c args : List Byte) (n : Nat) (g : GroupRun) (l : Nat) : Lane :=
  let v := ceilDiv k.wgLanes 64
  let slot := ((g.core * k.resident + g.pos) * v + l / 64) * 64 + l % 64
  { cl := cl, k := k, args := args, slot := fld c 48 8 + slot * k.slotBytes, slotBytes := k.slotBytes,
    inp := [fld c 28 4, fld c 32 4, fld c 36 4] ++ groupAt (fld c 28 4) (fld c 32 4) n ++ [l] }

/-- A run of a workgroup to its next cheap point or its end: the state, its flags, its lanes, and the point or fault met. -/
structure GroupRes where
  s : State
  flags : Nat
  lanes : List (Bool × List (List Nat))
  point : Option Nat
  fault : Option MemFault

/-- Every lane that has not ended runs to its next cheap point, or ends. -/
def State.runGroup (s : State) (lane : Nat → Lane) (lanes : List (Bool × List (List Nat))) : GroupRes :=
  lanes.zipIdx.foldl (fun (a : GroupRes) e =>
    if a.fault.isSome || e.1.1 then { a with lanes := a.lanes ++ [e.1] } else
    let r := a.s.runKernel (lane e.2) true e.1.2
    let a := { a with s := r.s, flags := a.flags ||| r.flags }
    match r.stop with
    | .over => { a with lanes := a.lanes ++ [(true, r.trace)] }
    | .cheap i => { a with lanes := a.lanes ++ [(false, r.trace)], point := a.point.or (some i) }
    | .fault f => { a with lanes := a.lanes ++ [(true, r.trace)], fault := some f })
    ⟨s, 0, [], none, none⟩

/-- How a run of a DISPATCH ended: all workgroups run, at cheap point i where it stands, or at a fault. -/
inductive DispatchEnd where
  | ok
  | stop (d : DispatchRun) (points : Nat) (live : Nat × Nat)
  | mem (f : MemFault)
  deriving DecidableEq, Repr

/-- Accumulator and staging bytes live at a cheap point of a kernel (R189). -/
def Kernel.liveAt (k : Kernel) (i : Nat) : Nat × Nat := (liveBytes k.ranges 0 i, liveBytes k.ranges 1 i)

/-- Run the workgroups of a DISPATCH in launch order from where it stands, past `cut` more cheap points or to its end (R184,
R262, R264). The core and residency position that a workgroup takes are open. -/
def State.runGroups (cl : Nat) (k : Kernel) (c args : List Byte) :
    Nat → State → DispatchRun → Nat → Option Nat → Nat × Nat → State × Nat × DispatchEnd
  | 0, s, d, n, _, live => (s, 0, .stop d n live)
  | fuel + 1, s, d, n, cut, live =>
    if cut == some 0 then (s, 0, .stop d n live)
    else if d.group ≥ fld c 28 4 * fld c 32 4 * fld c 36 4 then (s, 0, .ok)
    else
      let g := d.wg.getD { core := s.freeNum 0 % 16, pos := s.freeNum 1 % max 1 k.resident,
                           lanes := List.replicate k.wgLanes (false, []) }
      let r := s.spend.runGroup (groupLane cl k c args d.group g) g.lanes
      match r.fault, r.point with
      | some f, _ => (r.s, r.flags, .mem f)
      | none, some i =>
        let q := State.runGroups cl k c args fuel r.s { d with wg := some { g with lanes := r.lanes } } (n + 1) (cut.map (· - 1))
          (k.liveAt i)
        (q.1, r.flags ||| q.2.1, q.2.2)
      | none, none =>
        let q := State.runGroups cl k c args fuel r.s { group := d.group + 1, wg := none } n cut live
        (q.1, r.flags ||| q.2.1, q.2.2)

/-- A run of a DISPATCH of a checked kernel with its argument block. -/
def State.dispatchRun (s : State) (j : Job) (k : Kernel) (c args : List Byte) (d : DispatchRun) (cut : Option Nat) :
    State × Nat × DispatchEnd :=
  State.runGroups j.client k c args runFuel s d j.done cut j.live

/-- DISPATCH: checked where it begins; it goes on where it stands. Its argument block is read anew for each run. -/
def State.dispatchCmd (cut : Option Nat) (s : State) (j : Job) (c : List Byte) : State :=
  let d := match (if j.done == 0 then none else s.workOf j.id) with
    | some (.dispatch d) => d
    | _ => { group := 0, wg := none }
  let s := s.binRelease j.id
  match (if j.done == 0 then s.dispatchBad j c else none), s.kernelFor j (fld c 24 1) with
  | some off, _ => s.faultCmd j.id 2 0 off 0
  | none, none => s.faultCmd j.id 2 0 24 0
  | none, some k =>
    match s.argBlock j.client (fld c 40 8) 0 40 [k] with
    | (s, args, .ok) =>
      match s.dispatchRun j k c args d cut with
      | (s, fl, .ok) => (s.dropWork j.id).endCmd j.id St.OK [] fl
      | (s, fl, .stop d n live) => ((s.addFlags j.id fl).putWork j.id (.dispatch d)).standAt j.id n live
      | (s, fl, .mem f) => ((s.dropWork j.id).addFlags j.id fl).faultCmdMem j.id f 0 0
    | (s, _, .bad st off) => s.faultCmd j.id 2 st off 0
    | (s, _, .mem st f) => s.faultCmdMem j.id f st 0

/-! ## Commands -/

/-- `RENDER_PASS` (R246, R247). -/
def execRenderPass (dt : Nat) (j : JobId) (u : Course) (s : State) : Res :=
  .next (((s.advance dt).upsets u.upsets).runCmd j 0 0x12 (State.renderPassCmd u.cut))

/-- `BIN_STORE_ACQUIRE` (R256). -/
def execBinStoreAcquire (dt : Nat) (j : JobId) (u : Course) (s : State) : Res :=
  .next (((s.advance dt).upsets u.upsets).binAcquire j u.cut)

/-- `DISPATCH` (R246, R262). -/
def execDispatch (dt : Nat) (j : JobId) (u : Course) (s : State) : Res :=
  .next (((s.advance dt).upsets u.upsets).runCmd j 0 0x13 (State.dispatchCmd u.cut))

end Sys2Proof.Machine
end

