-- ==== Sys2Proof/Machine/Millrace.lean ====
section
/-! DEFINITION. Millrace: band slots, deadlines, the late pose latch, reprojection, the fallback unit and the band race (R298
to R307). -/

namespace Sys2Proof.Machine

/-! ## Band timing (R301, R302) -/

def State.bandRows (s : State) (p b : Nat) : Nat := min 32 (s.get (Od.V_ACTIVE p) - 32 * b)

/-- The effective lead of a band. -/
def State.bandLead (s : State) (p b : Nat) : Nat := min (s.get (Od.MR_LEAD p)) ((s.vBlank p + 32 * b) / 32)

/-- The deadline d_b. -/
def State.bandDeadline (s : State) (p b : Nat) : Nat :=
  (s.pipe p).tF + s.linesNs p (s.vBlank p + 32 * b - 32 * s.bandLead p b)

/-- The end of the scan of a band. -/
def State.bandScanned (s : State) (p b : Nat) : Nat :=
  (s.pipe p).tF + s.linesNs p (s.vBlank p + 32 * b + s.bandRows p b)

/-- The slot of a band is free: the band that last used it has been scanned; earlier frames end at t_F. -/
def State.bandSlotFree (s : State) (p b : Nat) : Bool :=
  let n := s.get (Od.MR_SLOTS p)
  b < n || s.bandScanned p (b - n) ≤ s.now

/-! ## The pose latch (R307) -/

/-- The pose of a flag value: software writes the pose of a value to the buffer of its parity. -/
def State.poseOf (s : State) (p v : Nat) : State × List Nat :=
  let m := (s.pipe p).mr
  s.rdPose (s.pipeClient p) (if v % 2 == 0 then m.poseVa0 else m.poseVa1)

/-- A write of the pose flag lands between two reads of it. -/
def State.movePoseFlag (s : State) (k : Nat) (v : Option (BitVec 32)) : State :=
  match v with
  | some v => s.setFlag false k v.toNat
  | none => s

/-- One attempt: the pose of the value read before, and the flag read again; the pose where the two reads agree. -/
def State.tryPose (s : State) (p k v : Nat) (moved : Option (BitVec 32)) : State × Option (List Nat) :=
  let r := s.poseOf p v
  let s := r.1.movePoseFlag k moved
  let f := s.flag false k
  (s, if f.val == v && !f.poison then some r.2 else none)

/-- Latch the newest pose of a pipe, or keep its previous one. `moved` are the values that writes give the flag while the
first and the second attempt read. -/
def State.latchPose (s : State) (p : Nat) (moved : List (BitVec 32)) : State :=
  let k := (s.pipe p).mr.poseFlag
  let keep := fun (s : State) (w : List Nat) => s.putPipe p { s.pipe p with pose := some w }
  if k ≥ 256 then s
  else
    match s.tryPose p k (s.flag false k).val moved[0]? with
    | (s, some w) => keep s w
    | (s, none) =>
      match s.tryPose p k (s.flag false k).val moved[1]? with
      | (s, some w) => keep s w
      | (s, none) => s.inc (Od.MR_POSE_STALE p)

/-! ## Reprojection (R306) -/

def f32Int (n : Nat) : Nat := (fmtF32.round false false n 1).1

/-- n + 0.5 in F32. -/
def f32Half (n : Nat) : Nat := (fmtF32.round false false (2 * n + 1) 2).1

/-- n ÷ 2 in F32. -/
def f32OfHalf (n : Nat) : Nat := (fmtF32.round false false n 2).1

def fAdd (a b : Nat) : Nat := (f32Add false a b).1
def fSub (a b : Nat) : Nat := (f32Sub false a b).1
def fMul (a b : Nat) : Nat := (f32Mul false a b).1
def fDiv (a b : Nat) : Nat := (f32Div false a b).1

/-- The exact elements of R_Δ = Exp(ω_s) × Exp(ω_n)ᵀ in fixed point; of two equal poses, the identity. -/
def rotExact (ws wn : List Nat) : Option (List Int) :=
  match expRot ws, expRot wn with
  | some a, some b => some (if ws == wn then identity3 else mul3 a (transpose3 b))
  | _, _ => none

/-- An element of R_Δ in FP32: open within 2^-20 of its exact value, and wholly open where a pose is not finite. -/
def rotElem (ws wn : List Nat) (k : Nat) : Nat :=
  let v := Config.rotDelta ws wn k % 2 ^ 32
  match rotExact ws wn with
  | none => v
  | some m => rotNear v (m.getD k 0)

def rotIdentity (ws wn : List Nat) : Bool :=
  (List.range 9).all (fun k => rotElem ws wn k == (if k % 4 == 0 then 0x3F800000 else 0))

/-- Position of an output column over a source of another width, as R224 places it (log entry 20). -/
def evenPos (j wd ws : Nat) : Int := rneInt (65536 * ((2 * j + 1) * (ws : Int) - wd)) (2 * max 1 wd)

/-- 65,536 × (u − 0.5), rounded; free where u is not finite, which R306 does not treat. -/
def tapCoord (u : Nat) (alt : Nat) : Int :=
  match fmtF32.decode u with
  | .fin neg n d => rneInt (65536 * (2 * finInt neg n - d)) (2 * d)
  | _ => signed 32 alt

/-- Geometry of a reprojection: shown size, source size, focal length. -/
structure Geo where
  wd : Nat
  hd : Nat
  ws : Nat
  hs : Nat
  f : Nat

/-- Source position (P_y, P_x) of output pixel (r, c); none behind the camera. -/
def reproject (g : Geo) (ws wn : List Nat) (r c : Nat) : Option (Int × Int) :=
  if rotIdentity ws wn then some (evenPos r g.hd g.hs, evenPos c g.wd g.ws) else
  let m := rotElem ws wn
  let qx := fDiv (fSub (f32Half c) (f32OfHalf g.wd)) g.f
  let qy := fDiv (fSub (f32Half r) (f32OfHalf g.hd)) g.f
  let row := fun i => fAdd (fAdd (fMul (m (3 * i)) qx) (fMul (m (3 * i + 1)) qy)) (fMul (m (3 * i + 2)) 0x3F800000)
  let pz := row 2
  if !f32Lt 0x35800000 pz then none else
  let out := fun (v ws wd : Nat) =>
    fAdd (fDiv (fMul (fMul (fDiv v pz) g.f) (f32Int ws)) (f32Int wd)) (f32OfHalf ws)
  some (tapCoord (out (row 1) g.hs g.hd) (Config.rotDelta ws wn (16 + 65536 * r + c)),
        tapCoord (out (row 0) g.ws g.wd) (Config.rotDelta ws wn (16 + 65536 * r + c + 32768)))

/-! ## Writing a band -/

/-- The first band of the frame that is not settled. -/
def firstOpen (l : List BandState) : Option Nat := l.findIdx? (fun b => b == .pending || b == .inProgress)

/-- Byte of the BAND partition at which a band's slot begins (R298). -/
def State.slotByte (s : State) (p b : Nat) : Nat :=
  s.get (Od.MR_OFFSET p) + b % max 1 (s.get (Od.MR_SLOTS p)) * 32 * s.get (Od.MR_PITCH p)

/-- Rows of the frame in progress whose scan has ended by now. -/
def State.rowsScanned (s : State) (p : Nat) : Nat :=
  min (s.get (Od.V_ACTIVE p))
    ((s.now - s.activeAt p) * s.get (Od.PCLK_KHZ p) / (1000000 * max 1 (s.hTotal p)))

/-- The scan reads a row from the slot of its band, without translation; of a transparent band there is nothing to read. -/
def State.readRow (s : State) (p y : Nat) : State × Option (List Byte) :=
  let b := (s.pipe p).bands.getD (y / 32) .blank
  if b == .complete || b == .filled then
    let r := s.rdPart (s.get (Od.MR_PART p)) (s.slotByte p (y / 32) + y % 32 * s.get (Od.MR_PITCH p))
      (4 * s.get (Od.H_ACTIVE p))
    (r.1, some r.2)
  else (s, none)

/-- Rows up to `last`, exclusive, are read in order, as far as their bands are settled (log entry 20). -/
def State.readRows (s : State) (p last : Nat) : State :=
  let x := s.pipe p
  let open_ := (firstOpen x.bands).elim last (32 * ·)
  (rangeFrom x.rows.length (min last open_ - x.rows.length)).foldl (fun s y =>
    let r := s.readRow p y
    r.1.putPipe p { r.1.pipe p with rows := (r.1.pipe p).rows ++ [r.2] }) s

/-- What the scan has passed is read from the slots before a slot is written again. -/
def State.catchUp (s : State) (p : Nat) : State := s.readRows p (s.rowsScanned p)

/-- Rows of a band, of W × 4 bytes each, go to its slot; the scan reads them there, and BAND_CRC sees them (R376). -/
def State.wrBand (s : State) (p b : Nat) (rows : List (List Byte)) (fallback : Bool) : State :=
  let s := s.catchUp p
  let base := s.slotByte p b
  let s := (rows.mapIdx (fun i r => (i, r))).foldl (fun s e =>
    s.wrPart (s.get (Od.MR_PART p)) (base + e.1 * s.get (Od.MR_PITCH p)) e.2) s
  let seen : BandSeen := { tick := s.get Od.TICK_COUNT, fallback := fallback, band := b, crc := crc32 rows.flatten }
  s.putPipe p { s.pipe p with seen := some seen }

/-- The fallback surface as a tensor of four UINT8 channels, fetched as the pipe fetches: what faults reads 0 (R304). -/
def State.fallbackSurface (s : State) (p : Nat) (m : MrLatch) : State × TData :=
  let t : Target := { va := m.fbVa, pitch := m.fbPitch, fmt := 3, loadOp := 1, store := false, clear := [] }
  let r := (t.pieces ⟨0, 0, m.fbW, m.fbH⟩).foldl (fun (a : State × List Byte) q =>
    let r := a.1.rdThrough (s.pipeClient p) (t.pixelVa q.1 q.2.1) (4 * q.2.2)
    (r.1, a.2 ++ r.2.1)) (s, [])
  (r.1, { e := .int 8 false, h := m.fbH, w := m.fbW, c := 4, y0 := 0, rowBytes := 4 * m.fbW, bytes := r.2 })

/-! ## The fallback unit (R304) -/

/-- The pixels of a band, reprojected from the fallback source. -/
def State.fallbackRows (s : State) (p b : Nat) (m : MrLatch) (moved : List (BitVec 32)) : State × List (List Byte) :=
  let r := s.rdPose (s.pipeClient p) m.fbPoseVa
  let s := r.1
  let ws := r.2
  let s := if s.on (Od.MR_LATCH p) then s.latchPose p moved else s
  let wn := if s.on (Od.MR_LATCH p) then (s.pipe p).pose.getD ws else ws
  let q := s.fallbackSurface p m
  let w := s.get (Od.H_ACTIVE p)
  let g : Geo := { wd := w, hd := s.get (Od.V_ACTIVE p), ws := m.fbW, hs := m.fbH, f := m.focal }
  (q.1, (rangeFrom (32 * b) (s.bandRows p b)).map (fun y => (List.range w).flatMap (fun x =>
    match reproject g ws wn y x with
    | some e => (List.range 4).map (fun c => BitVec.ofNat 8 (q.2.sample (.int 8 false) false true e.1 e.2 c).1)
    | none => [0, 0, 0, 0])))

def setBand (l : List BandState) (b : Nat) (v : BandState) : List BandState := l.set b v

/-- The job of a bound band-out layer waits again, or no longer misses the band it lost. -/
def State.waitBandJob (s : State) (p : Nat) : State :=
  match (s.pipe p).bandOut with
  | some o => match s.job o.job with
    | some j => if j.phase == .started then s.putJob { j with blocked := true } else s
    | none => s
  | none => s

/-- One band more that the bound layer abandoned or skipped (R303). -/
def State.missBand (s : State) (p : Nat) : State :=
  let x := s.pipe p
  match x.bandOut with
  | some o => s.putPipe p { x with bandOut := some { o with missed := o.missed + 1 } }
  | none => s

/-- Fill band b from a source, or leave it transparent. -/
def State.fillBand (s : State) (p b : Nat) (m : Option MrLatch) (moved : List (BitVec 32)) : State :=
  let settle := fun (s : State) (v : BandState) => s.putPipe p { s.pipe p with bands := setBand (s.pipe p).bands b v }
  match m with
  | some m =>
    if !m.fbValid then settle s .blank
    else
      let r := s.fallbackRows p b m moved
      settle (r.1.wrBand p b r.2 true) .filled
  | none => settle s .blank

/-- The fallback source of a frozen frame is that of the last complete frame; all else is its own (R309, R319). -/
def MrLatch.sourceOf (m good : MrLatch) : MrLatch :=
  { m with fbValid := good.fbValid, fbVa := good.fbVa, fbW := good.fbW, fbH := good.fbH, fbPitch := good.fbPitch,
           fbPoseVa := good.fbPoseVa }

/-- Band b is not complete at its deadline: counted and filled (R303 to R305). In a frozen frame every band is the
fallback unit's, from the last complete frame, and none is late (R319). -/
def State.lateBand (s : State) (p b : Nat) (moved : List (BitVec 32)) : State :=
  let x := s.pipe p
  if x.frozen then s.fillBand p b (x.good.map (fun g => x.mr.sourceOf g.2)) moved
  else
    let s := (s.missBand p).waitBandJob p
    let s := s.inc (if x.mr.fbValid then Od.MR_FALLBACKS p else Od.MR_BLANK_BANDS p)
    let s := s.set (Od.MR_LAST_LATE p) (s.get Od.TICK_COUNT % 2 ^ 24 * 256 + b)
    let s := s.gatherN 4 1 (0x6000 + p) p 0 1
    ((s.fillBand p b (some x.mr) moved).settleBandOut p).when (x.bands.getD b .pending == .inProgress) (·.atPoint .dibber)

/-- The deadline of the first open band has passed: bands are taken in ascending deadline, then number. A BLANK frame
fills none (R349). -/
def State.bandDue (s : State) (p : Nat) (moved : List (BitVec 32)) : State :=
  let x := s.pipe p
  match firstOpen x.bands with
  | some b => if x.scanning && s.bandDeadline p b ≤ s.now && !x.blank then s.lateBand p b moved else s
  | none => s

/-- Every deadline that has passed. -/
def State.allDue (s : State) (p : Nat) : State := (s.pipe p).bands.foldl (fun s _ => s.bandDue p []) s

/-! ## The band race (R300, R302) -/

/-- The started job of the layer bound to a pipe's frame. -/
def State.bandJob (s : State) (p : Nat) : Option (BandOut × Job) :=
  match (s.pipe p).bandOut with
  | some o => match s.job o.job with
    | some j => if j.phase == .started then some (o, j) else none
    | none => none
  | none => none

/-- The Dibber starts the next band of the bound layer. -/
def State.bandStart (s : State) (p : Nat) (moved : List (BitVec 32)) : State :=
  let x := s.pipe p
  match s.bandJob p, firstOpen x.bands with
  | some (o, j), some b =>
    let k := { j with blocked := false }
    if x.scanning && x.bands.getD b .pending == .pending && s.bandSlotFree p b && s.now < s.bandDeadline p b && s.mayIssue k
    then
      let s := (s.putJob k).begin_ k
      let s := if s.on (Od.MR_LATCH p) then s.latchPose p moved else s
      let x := s.pipe p
      s.putPipe p { x with bands := setBand x.bands b .inProgress,
                           bandOut := some { o with newest := x.pose.getD o.pose } }
    else s
  | _, _ => s

/-- The tap positions of a band's rows: those of R306 under `MR_LATCH`, else those of R224. -/
def State.bandPos (s : State) (p : Nat) (l : Layer) (o : BandOut) (y x : Nat) : Option (Int × Int) :=
  if !s.on (Od.MR_LATCH p) || rotIdentity o.pose o.newest then l.positions y x
  else
    let g : Geo := { wd := s.get (Od.H_ACTIVE p), hd := s.get (Od.V_ACTIVE p), ws := l.ta.w, hs := l.ta.h,
                     f := (s.pipe p).mr.focal }
    reproject g o.pose o.newest y x

/-- Bytes of one output row: channel i in byte i, byte 3 255 where there are three (R299). -/
def bandRowBytes (c : Nat) (row : List Nat) : List Byte :=
  (piecesOf c row).flatMap (fun px => (px.map (BitVec.ofNat 8)) ++ (if c == 3 then [255] else []))

/-- The rows of band b of a bound layer, channel by channel, from the rows of tensor A that it needs (R228). -/
def State.bandRowsOf (s : State) (p b : Nat) (o : BandOut) (cl : Nat) : State × List (List NumR) × Option MemFault :=
  let l := layerOf o.desc none
  let pos := s.bandPos p l o
  let lo := 32 * b
  let hi := lo + s.bandRows p b
  match s.rdParams l (dibEnv cl true) with
  | (s, _, _, some f) => (s, [], some f)
  | (s, w, ch, none) =>
    let n := l.needs pos lo hi
    match s.rdRows cl l.ta (elemOf l.aFmt) n.1 n.2 with
    | (s, _, some f) => (s, [], some f)
    | (s, a, none) =>
      (s, (rangeFrom lo (hi - lo)).map (fun y =>
        (List.range l.tout.w).flatMap (fun x => l.pixel a a w ch pos y x 0 l.tout.c)), none)

/-- Every write of the band in progress is visible (R301). A band that comes after its deadline is late. -/
def State.bandComplete (s : State) (p : Nat) : State :=
  let x := s.pipe p
  match s.bandJob p, firstOpen x.bands with
  | some (o, j), some b =>
    if x.bands.getD b .pending != .inProgress then s
    else if s.bandDeadline p b < s.now then s.lateBand p b []
    else
      match s.bandRowsOf p b o j.client with
      | (s, _, some f) =>
        let s := s.putPipe p { s.pipe p with bands := setBand x.bands b .pending }
        s.faultCmdMem j.id f (fld (s.currentCmd j) 32 2) 0
      | (s, out, none) =>
        let s := (s.addFlags j.id (out.foldl (fun f r => f ||| rowFlags r) 0)).inc Od.DIB_BANDS
        let s := s.wrBand p b (out.map (fun r => bandRowBytes (layerOf o.desc none).tout.c (r.map (·.1)))) false
        let x := s.pipe p
        let s := s.putPipe p { x with bands := setBand x.bands b .complete, bandOut := some { o with wrote := o.wrote + 1 } }
        ((s.waitBandJob p).settleBandOut p).atPoint .dibber
  | _, _ => s

/-- An abandoned frame skips every band that is not complete (R305). -/
def State.skipBands (s : State) (p : Nat) : State :=
  let x := s.pipe p
  let open_ := x.bands.filter (fun b => b == .pending || b == .inProgress)
  let s := open_.foldl (fun s _ => s.missBand p) s
  let x := s.pipe p
  let s := s.putPipe p { x with bands := x.bands.map (fun b => if b == .pending || b == .inProgress then .skipped else b) }
  (s.waitBandJob p).settleBandOut p

/-! ## Commands -/

/-- `BAND_START` (R302, R307). -/
def execBandStart (dt : Nat) (p : LatchIn) (s : State) : Res :=
  .next (((s.advance dt).catchUp p.pipe.val).bandStart p.pipe.val p.moved)

/-- `BAND_COMPLETE` (R301). -/
def execBandComplete (dt : Nat) (p : Fin 4) (s : State) : Res := .next (((s.advance dt).catchUp p.val).bandComplete p.val)

/-- `BAND_DEADLINE` (R303, R304). -/
def execBandDeadline (dt : Nat) (p : LatchIn) (s : State) : Res :=
  .next (((s.advance dt).catchUp p.pipe.val).bandDue p.pipe.val p.moved)

end Sys2Proof.Machine
end

