-- ==== Sys2Proof/Machine/Scan.lean ====
section
/-! DEFINITION. Scan-out: fetch, rotation, palette and composition of the layers (R324 to R326), underrun (R327), the
output check (R328, R329) and the release of buffers (R322). -/

namespace Sys2Proof.Machine

/-! ## Fetch (R322 to R325) -/

/-- A palette format: indices of 1, 2, 4 or 8 bits, row by row. -/
def indexed (fmt : Nat) : Bool := 0x21 ≤ fmt && fmt ≤ 0x24

/-- Surface of a layer in the blocks of R248. -/
def LayerCfg.target (c : LayerCfg) : Target :=
  { va := c.va, pitch := c.pitch, fmt := c.fmt, loadOp := 1, store := false, clear := [] }

/-- Width and height of the rotated rectangle (R325). -/
def LayerCfg.size (c : LayerCfg) : Nat × Nat := if c.rot % 2 == 0 then (c.srcW, c.srcH) else (c.srcH, c.srcW)

/-- Byte ranges of a surface that a scan reads, row by row: x, y, address and bytes. -/
def LayerCfg.ranges (c : LayerCfg) : List (Nat × Nat × Nat × Nat) :=
  if indexed c.fmt then
    (List.range c.srcH).map (fun y => (0, y, c.va + y * c.pitch, ceilDiv (c.srcW * dispBits c.fmt) 8))
  else
    (c.target.pieces ⟨0, 0, c.srcW, c.srcH⟩).map (fun q => (q.1, q.2.1, c.target.pixelVa q.1 q.2.1, q.2.2 * c.target.bytes))

/-- Raw pixels of a layer's surface, and the first address whose fetch faulted; what faults reads 0 (R119). Of the byte
ranges only those that `need` names by their first pixel are fetched. -/
def State.fetchLayer (s : State) (c : LayerCfg) (need : Nat → Nat → Bool) : State × (Nat → Nat → Nat) × Option Nat :=
  let r := (c.ranges.filter (fun q => need q.1 q.2.1)).foldl (fun (a : State × List (Nat × List Byte) × Option Nat) q =>
    let r := a.1.rdThrough c.client q.2.2.1 q.2.2.2
    (r.1, (pixelKey q.1 q.2.1, r.2.1) :: a.2.1, a.2.2.or (r.2.2.map (·.va)))) (s, [], none)
  let row := fun (x y : Nat) => ((r.2.1.find? (fun e => e.1 == pixelKey x y)).map (·.2)).getD []
  let n := dispBits c.fmt
  let bw := (blockDims c.target.bytes).1
  (r.1, if indexed c.fmt
      then fun x y => bitsOf (fld (row 0 y) (x * n / 8) 1) (x * n % 8) n
      else fun x y => fld (row (x / bw * bw) y) (x % bw * c.target.bytes) c.target.bytes, r.2.2)

/-- Source pixel of an output pixel of the rectangle (R325). -/
def LayerCfg.source (c : LayerCfg) (x y : Nat) : Nat × Nat :=
  let x := if c.mirror then c.size.1 - 1 - x else x
  if c.rot == 0 then (x, y)
  else if c.rot == 1 then (y, c.srcH - 1 - x)
  else if c.rot == 2 then (c.srcW - 1 - x, c.srcH - 1 - y)
  else (c.srcW - 1 - y, x)

/-- The layer's rectangle covers a pixel. -/
def LayerCfg.covers (c : LayerCfg) (x y : Nat) : Bool :=
  c.dstX ≤ x && x < c.dstX + c.size.1 && c.dstY ≤ y && y < c.dstY + c.size.2

/-! ## Colour (R324, R326) -/

/-- Red, green, blue and alpha, each exact. -/
structure Px where
  r : Rat
  g : Rat
  b : Rat
  a : Rat
  deriving DecidableEq, Repr

/-- Three 10-bit fields ÷ 1,023: a palette entry or `BG_COLOR`. -/
def px10 (v : Nat) (a : Rat) : Px := ⟨mkRat (bitsOf v 20 10) 1023, mkRat (bitsOf v 10 10) 1023, mkRat (bitsOf v 0 10) 1023, a⟩

/-- An RGBA16F component clamped to 0 to 1; NaN becomes 0. -/
def clampF16 (v : Nat) : Rat :=
  match fmtF16.decode v with
  | .nan _ => 0
  | .inf neg => if neg then 0 else 1
  | .fin neg n d => if neg then 0 else if d ≤ n then 1 else mkRat n d

/-- Colour of a raw pixel of a layer. -/
def LayerCfg.colour (c : LayerCfg) (pal : List Byte) (raw : Nat) : Px :=
  if indexed c.fmt then px10 (fld pal (4 * raw) 4) (if raw == c.palKey then 0 else 1)
  else if c.fmt == 8 then
    ⟨clampF16 (bitsOf raw 0 16), clampF16 (bitsOf raw 16 16), clampF16 (bitsOf raw 32 16), clampF16 (bitsOf raw 48 16)⟩
  else if c.fmt == 5 then
    ⟨mkRat (bitsOf raw 0 10) 1023, mkRat (bitsOf raw 10 10) 1023, mkRat (bitsOf raw 20 10) 1023, mkRat (bitsOf raw 30 2) 3⟩
  else ⟨mkRat (bitsOf raw 0 8) 255, mkRat (bitsOf raw 8 8) 255, mkRat (bitsOf raw 16 8) 255, mkRat (bitsOf raw 24 8) 255⟩

/-- A layer's colour over what lies below, by `ALPHA_MODE` (R326). -/
def overlay (mode : Nat) (g : Rat) (s d : Px) : Px :=
  let k : Rat := if mode == 1 then s.a * g else g
  let keep : Rat := if mode == 0 then 1 - g else 1 - s.a * g
  ⟨s.r * k + d.r * keep, s.g * k + d.g * keep, s.b * k + d.b * keep, d.a⟩

/-- A component clamped and rounded once to `bpc` bits. -/
def quantise (bpc : Nat) (v : Rat) : Nat :=
  if v < 0 then 0 else if 1 < v then 2 ^ bpc - 1
  else (rneInt ((v * (2 ^ bpc - 1 : Nat)).num) ((v * (2 ^ bpc - 1 : Nat)).den)).toNat

/-- A pixel as sent: R, G and B of `bpc` bits, from the top. -/
def Px.pack (bpc : Nat) (p : Px) : Nat :=
  (quantise bpc p.r * 2 ^ bpc + quantise bpc p.g) * 2 ^ bpc + quantise bpc p.b

/-- The bytes of a pixel for the CRCs of R328. -/
def pixelBytes (bpc v : Nat) : List Byte := if bpc == 8 then toBe 3 v else toLe 4 v

/-! ## Layers of a frame -/

/-- A buffer's fault is recorded with its first event (R322). -/
def State.noteFetchFault (s : State) (p : Nat) (l : Shown) (va : Nat) : State :=
  let x := s.pipe p
  let mine := (x.layers ++ x.releasing).filter (fun o => o.cfg.job == l.cfg.job)
  if mine.any (fun o => o.fault.isSome) then s
  else
    let mark := fun (o : Shown) => if o.cfg.job == l.cfg.job then { o with fault := some va } else o
    (s.putPipe p { x with layers := x.layers.map mark, releasing := x.releasing.map mark }).post 2 3 (0x6000 + p) p va

/-- A layer ready for composition: its settings and its raw pixels. -/
abbrev Fetched := LayerCfg × (Nat → Nat → Nat)

/-- What a pipe shows came through its FIFO, by refills that are DRAM requests of their own (R130, R131): reading it
off here is none. -/
def State.byFifo {α : Type} (s : State) (f : State → State × α) : State × α :=
  let r := f { s with mem := { s.mem with refresh := .awake } }
  ({ r.1 with mem := { r.1.mem with refresh := s.mem.refresh, lastReq := s.mem.lastReq } }, r.2)

/-- First pixel of the range of bytes that holds a surface pixel. -/
def LayerCfg.rangeOf (c : LayerCfg) (q : Nat × Nat) : Nat × Nat :=
  if indexed c.fmt then (0, q.2) else
  let bw := (blockDims c.target.bytes).1
  (q.1 / bw * bw, q.2)

/-- A range of a surface holds the source of a pixel that the pipe composes: any, but in an abandoned frame only those
before its first underrun pixel (R327). -/
def Pipe.needs (x : Pipe) (c : LayerCfg) (w : Nat) (px py : Nat) : Bool :=
  match x.abandoned, x.missing.getLast? with
  | true, some m => (List.range (m.2.1 * w + m.1)).any (fun i =>
      c.covers (i % w) (i / w) && c.rangeOf (c.source (i % w - c.dstX) (i / w - c.dstY)) == (px, py))
  | _, _ => true

/-- Fetch the layers of the frame in progress, in ascending order. -/
def State.fetchLayers (s : State) (p : Nat) : State × Map Fetched :=
  (s.pipe p).shown.foldl (fun (a : State × Map Fetched) l =>
    if !l.cfg.enable then a else
    let r := a.1.fetchLayer l.cfg ((s.pipe p).needs l.cfg (s.get (Od.H_ACTIVE p)))
    let s := match r.2.2 with
      | some va => r.1.noteFetchFault p l va
      | none => r.1
    (s, mset a.2 l.layer (l.cfg, r.2.1))) (s, [])

/-- Pixel of the Millrace L0; none where its band holds nothing (R298, R304). -/
def Pipe.bandPixel (x : Pipe) (px py : Nat) : Option Px :=
  match (x.rows[py]?).join with
  | some b =>
    let v := fld b (px * 4) 4
    some ⟨mkRat (bitsOf v 0 8) 255, mkRat (bitsOf v 8 8) 255, mkRat (bitsOf v 16 8) 255, mkRat (bitsOf v 24 8) 255⟩
  | none => none

/-- The composed pixel (R326). A BLANK frame sends 0 in every component (R349). -/
def Pipe.compose (x : Pipe) (mr : Bool) (bpc : Nat) (ls : Map Fetched) (px py : Nat) : Nat :=
  if x.blank then 0 else
  let bg := px10 x.bg 1
  let d := if mr then (match x.bandPixel px py with
    | some c => overlay 1 1 c bg
    | none => bg) else bg
  let d := ls.foldl (fun (d : Px) e =>
    let c := e.2.1
    if (mr && e.1 == 0) || !c.covers px py then d else
    let q := c.source (px - c.dstX) (py - c.dstY)
    overlay c.alphaMode (mkRat c.globalAlpha 255) (c.colour x.palActive (e.2.2 q.1 q.2)) d) d
  d.pack bpc

/-! ## Underrun (R327) -/

/-- Pixel number in scan order. -/
def scanNo (w x y : Nat) : Nat := y * w + x

/-- A pixel lacked its data. -/
def Pipe.lacks (x : Pipe) (w i : Nat) : Bool :=
  x.missing.any (fun m => scanNo w m.1 m.2.1 ≤ i && i < scanNo w m.1 m.2.1 + m.2.2)

/-- The pixels sent: with REPEAT a pixel without data repeats the last one composed from complete data; under ABORT the
rest of the frame is `bg`, or ends there in DSI command mode. The result is newest first. -/
def sendPixels (x : Pipe) (w bg first : Nat) (cut : Bool) (comp : Nat → Nat) : List Nat → List Nat × Nat × Bool
  | l => l.foldl (fun (a : List Nat × Nat × Bool) i =>
      if a.2.2 then (if cut then a else (bg :: a.1, a.2.1, true))
      else if x.lacks w i then
        (if x.abandoned then (if cut then (a.1, a.2.1, true) else (bg :: a.1, a.2.1, true)) else (a.2.1 :: a.1, a.2.1, false))
      else
        let v := comp i
        (v :: a.1, v, false)) ([], first, false)

/-- A DSI link in command mode. -/
def State.dsiCommand (s : State) (p : Nat) : Bool :=
  (s.get (Od.PIPE_IF p) == 1 || s.get (Od.PIPE_IF p) == 2) && s.get (Od.DSI_MODE p) == 1

/-- A shown layer fetched from DRAM covers a pixel; a Millrace L0 never underruns. -/
def State.dramAt (s : State) (p x y : Nat) : Bool :=
  (s.pipe p).shown.any (fun l => l.cfg.covers x y && s.dramFed l && !(l.layer == 0 && s.on (Od.MR_EN p)))

/-- Pixels of a run that lack data: those from its first pixel on that a DRAM-fed layer covers. -/
def State.runLength (s : State) (p w : Nat) : Nat → Nat → Nat → Nat
  | 0, _, n => n
  | fuel + 1, i, n => if s.dramAt p (i % w) (i / w) then s.runLength p w fuel (i + 1) (n + 1) else n

/-- `UNDERRUN` of a run of pixels. -/
def State.underrun (s : State) (p x y count : Nat) : State :=
  let w := s.get (Od.H_ACTIVE p)
  let total := w * s.get (Od.V_ACTIVE p)
  let i := scanNo w x y
  let pipe := s.pipe p
  if !pipe.scanning || pipe.abandoned || x ≥ w || i ≥ total || s.now < s.activeAt p then s else
  let n := s.runLength p w (min count (total - i)) i 0
  if n == 0 then s else
  let s := if pipe.underrunSeen then s else s.inc (Od.UNDERRUN_FRAMES p)
  let s := s.gatherN 4 2 (0x6000 + p) p 0 1
  if s.get (Od.UNDERRUN_MODE p) == 1 then
    (s.putPipe p { pipe with missing := pipe.missing ++ [(x, y, n)], underrunSeen := true }).incBy (Od.UNDERRUN_PIX p) n
  else
    let s := s.putPipe p { pipe with missing := pipe.missing ++ [(x, y, total - i)], underrunSeen := true,
                                     abandoned := true, freezeNext := true }
    let s := if s.dsiCommand p then s else s.incBy (Od.UNDERRUN_PIX p) (total - i)
    (s.skipBands p)

/-! ## Release (R322) -/

/-- A buffer is released: its PRESENT completes with the frames shown and the first of them. -/
def State.releaseBuf (s : State) (b : Shown) : State :=
  match b.fault with
  | some va => s.faultCmd b.cfg.job 4 0 0 va
  | none => s.endCmd b.cfg.job St.OK (toLe 4 b.frames ++ toLe 4 b.first) 0

/-- A PRESENT that showed nothing completes OK with 0 frames shown. -/
def State.endUnshown (s : State) (id : JobId) : State := s.endCmd id St.OK (zeroBytes 8) 0

/-- A link leaves TRAINED: the frame in progress is unchecked (R329). -/
def State.linkGone (s : State) (p v : Nat) : State :=
  let s := s.set (Od.LINK_STATE p) v
  s.when (s.pipe p).scanning (fun s => s.putPipe p { s.pipe p with unchecked := true })

/-! ## End of a frame's scan (R319, R322, R328) -/

/-- Port of a pipe: 0 and 1 DSI, 2 and 3 DP (R311, R377). -/
def portOfIf (pif : Nat) : Option Nat :=
  if pif == 1 then some 0 else if pif == 2 then some 1
  else if pif == 3 || pif == 4 then some 2 else if pif == 5 || pif == 6 then some 3 else none

/-- OUTCHK_LOOP is in force and selects the port of a pipe (R377). -/
def State.loopOn (s : State) (p : Nat) : Bool :=
  s.get Od.BSCAN_IR == 0x12 && portOfIf (s.get (Od.PIPE_IF p)) == some s.tap.port && s.pipeOn p

/-- The active pixels of the frame in progress, in scan order, and the last pixel composed from complete data. -/
def State.framePixels (s : State) (p : Nat) (ls : Map Fetched) : List Nat × Nat :=
  let x := s.pipe p
  let w := s.get (Od.H_ACTIVE p)
  let bpc := s.get (Od.BPC p)
  let r := sendPixels x w ((px10 x.bg 1).pack bpc) (x.lastPixel.getD (s.free % 2 ^ (3 * bpc))) (s.dsiCommand p)
    (fun i => x.early.getD i (x.compose (s.on (Od.MR_EN p)) bpc ls (i % w) (i / w)))
    (List.range (w * s.get (Od.V_ACTIVE p)))
  (r.1.reverse, r.2.1)

/-! ## Retraining under a pipe (R111) -/

/-- Active pixels composed up to now, each line's active pixels first (log entry 51). -/
def State.pixelNow (s : State) (p : Nat) : Nat :=
  let h := max 1 (s.hTotal p)
  let w := s.get (Od.H_ACTIVE p)
  let clocks := (s.now - s.activeAt p) * s.get (Od.PCLK_KHZ p) / 1000000
  if s.now < s.activeAt p then 0 else min (w * s.get (Od.V_ACTIVE p)) (clocks / h * w + min w (clocks % h))

/-- DRAM serves no more accesses: the pixels of the frame in progress that the FIFO still holds data for are settled, and
a refill under way ends. -/
def State.holdEarly (s : State) (p : Nat) : State :=
  if !s.pipeOn p then s else
  let s := s.settleFifo p
  let s := if (s.pipe p).scanning && s.dramBits p != 0 then
      let r := (s.catchUp p).byFifo (·.fetchLayers p)
      let n := s.pixelNow p + 8 * (s.fifo p).fill / s.dramBits p
      r.1.putPipe p { r.1.pipe p with early := (s.framePixels p r.2).1.take n }
    else s
  { s with mem := { s.mem with fifos := mset s.mem.fifos p { s.fifo p with refilling := false } } }

/-- The pixels of a range that a DRAM-fed layer covers are underrun, each once. -/
def State.starveFrom (s : State) (p w : Nat) : Nat → Nat → State
  | 0, _ => s
  | n + 1, i =>
    let s := if s.dramAt p (i % w) (i / w) && !(s.pipe p).lacks w i then s.underrun p (i % w) (i / w) (n + 1) else s
    s.starveFrom p w n (i + 1)

/-- The pixels composed so far while DRAM served no access lacked their data. -/
def State.starve (s : State) (p : Nat) : State :=
  let x := s.pipe p
  if s.opRunning .memTrain && x.scanning then
    s.starveFrom p (s.get (Od.H_ACTIVE p)) (s.pixelNow p - x.early.length) x.early.length
  else s

/-- A write of 0x7121 to MEM_TRAIN. -/
def State.wrMemTrain (s : State) (via : Path) : WRes :=
  if s.opRunning .memTrain || s.selftesting || s.on Od.TICK_EN || s.jobRunning then .no s Ab.BUSY
  else .start (([0, 1, 2, 3] : List Nat).foldl State.holdEarly s) .memTrain via Od.MEM_TRAIN State.wakeDram

/-- DRAM serves accesses again: the writes that waited land. -/
def State.landWrites (s : State) : State :=
  let late := s.mem.waiting
  let ops := s.ops
  let s : State := { s with mem := { s.mem with waiting := [], lastReq := s.now },
                            ops := ops.filter (fun o => o.kind != .memTrain) }
  let s := late.foldl (fun s w => if w.1 < s.usable then s.wrChunk (.dram w.1) w.2.1 w.2.2.1 w.2.2.2 else s) s
  { s with ops := ops }

/-- A retraining ends: `INLINE_ECC_REQ` applies, and every DRAM byte and metadata entry is 0. -/
def State.trainDone (s : State) : State :=
  let s := ([0, 1, 2, 3] : List Nat).foldl State.starve s
  let s := s.set Od.INLINE_ECC (s.get Od.INLINE_ECC_REQ)
  { s with mem := { s.mem with dram := [], metaDram := [], badDram := [] } }.landWrites

/-- A retraining is cut off: content and `INLINE_ECC` stay. -/
def State.trainCut (s : State) : State := (([0, 1, 2, 3] : List Nat).foldl State.starve s).landWrites

/-! ## The end of a scan -/

/-- A checked frame waits for its comparison; an unchecked one is counted (R329, R377). -/
def State.noteScan (s : State) (p : Nat) (pixels : List Nat) : State :=
  let x := s.pipe p
  if x.unchecked then s.when x.chk (·.inc (Od.OUTCHK_SKIPPED p))
  else if x.chk || s.loopOn p then
    let c : ToCompare := { frame := s.get (Od.FRAME_COUNT p), counted := x.chk,
                           crc := (crc32 (pixels.flatMap (pixelBytes (s.get (Od.BPC p))))) }
    s.putPipe p { x with toCompare := some c }
  else s

/-- A frame that is complete becomes the last complete one, and replaced buffers are released. -/
def State.frameComplete (s : State) (p : Nat) : State :=
  let x := s.pipe p
  if x.abandoned || x.frozen || x.blank then s
  else
    let s := s.putPipe p { x with good := some (x.shown, x.mr), releasing := [] }
    x.releasing.foldl State.releaseBuf s

/-- The scan of the frame in progress ends. -/
def State.scanEnd (s : State) (p : Nat) : State :=
  if !(s.pipe p).scanning then s else
  let s := ((s.allDue p).readRows p (s.get (Od.V_ACTIVE p))).starve p
  let r := s.byFifo (·.fetchLayers p)
  let s := r.1
  let q := s.framePixels p r.2
  let s := if (s.pipe p).lastPixel.isNone then s.spend else s
  let s := s.when (s.get (Od.LINK_STATE p) == 2) (·.emit (.picture p (s.get (Od.FRAME_COUNT p)) q.1))
  let s := s.noteScan p q.1
  let s := s.putPipe p { s.pipe p with scanning := false, lastPixel := some q.2 }
  s.frameComplete p

/-- Compare the CRCs of the last scanned frame (R329). -/
def State.compareCrc (s : State) (p : Nat) (pins : Option (BitVec 32)) : State :=
  let x := s.pipe p
  match x.toCompare with
  | none => s
  | some c =>
    let pin := (pins.map (·.toNat)).getD 0
    let same := pins.isSome && pin == c.crc
    let res : Compared := { same := same, frame := c.frame, pin := pin, pipe := c.crc }
    let s := s.putPipe p { x with toCompare := none, compared := some res }
    let s := if s.loopOn p then { s with tap := { s.tap with loopSeen := true } } else s
    if !c.counted then s
    else
      let s := s.inc (Od.OUTCHK_FRAMES p)
      if same then s
      else ((s.inc (Od.OUTCHK_MISMATCH p)).set (Od.OUTCHK_LAST p) (pin * 2 ^ 32 + c.crc)).gatherN 4 3 (0x6000 + p) p 0 1

/-! ## Commands -/

/-- `FRAME_SCAN_END` (R322). -/
def execFrameScanEnd (dt : Nat) (p : Fin 4) (s : State) : Res :=
  let s := s.advance dt
  .next (if s.now ≥ (s.pipe p.val).tF + s.linesNs p.val (s.vTotal p.val) then s.scanEnd p.val else s)

/-- `UNDERRUN` (R327). -/
def execUnderrun (dt : Nat) (p : Fin 4) (x y count : Nat) (s : State) : Res :=
  .next ((s.advance dt).underrun p.val x y count)

/-- `OUTCHK_COMPARE` (R329). -/
def execOutchkCompare (dt : Nat) (p : Fin 4) (pins : Option (BitVec 32)) (s : State) : Res :=
  .next ((s.advance dt).compareCrc p.val pins)

end Sys2Proof.Machine
end

