-- ==== Sys2Proof/Machine/Display.lean ====
section
/-! DEFINITION. Presentations (R320 to R323), the frame start (R300, R308, R319, R321, R349), and the pipes' objects: ports,
links, enable (R310 to R318). -/

namespace Sys2Proof.Machine

/-! ## PRESENT (R320, R321) -/

/-- Object index of a layer, counted over the pipes. -/
def layerNo (p l : Nat) : Nat := 4 * p + l

/-- What a PRESENT asks for. -/
def presentCfg (j : Job) (c : List Byte) : LayerCfg :=
  let f := fld c 26 1
  { job := j.id, handle := j.handle, client := j.client, enable := bitOf f 0, rot := bitsOf f 1 2, mirror := bitOf f 3,
    alphaMode := bitsOf f 4 2, flagsByte := f, globalAlpha := fld c 27 1, va := fld c 32 8, srcW := fld c 40 2,
    srcH := fld c 42 2, pitch := fld c 44 2, fmt := fld c 46 1, dstX := fld c 48 2, dstY := fld c 50 2, palKey := fld c 52 2 }

/-- A format and rotation that R324 allows. -/
def presentFmtOk (fmt rot : Nat) : Bool :=
  fmt == 3 || fmt == 4 || fmt == 5 || fmt == 8 || (indexed fmt && rot % 2 == 0)

/-- First offending byte of a PRESENT. -/
def State.presentBad (s : State) (j : Job) (c : List Byte) : Option Nat :=
  let p := fld c 24 1
  let l := fld c 25 1
  let k := presentCfg j c
  if p > 3 || !s.ownsPipe j.client p then some 24
  else if l > 3 || (k.enable && l == 0 && s.on (Od.MR_EN p)) then some 25
  else if k.alphaMode == 3 || bitOf k.flagsByte 7 then some 26
  else if k.enable && (k.srcW == 0 || k.srcW > 8192) then some 40
  else if k.enable && (k.srcH == 0 || k.srcH > 8192) then some 42
  else if k.enable && indexed k.fmt && k.pitch % 64 != 0 then some 44
  else if k.enable && !presentFmtOk k.fmt k.rot then some 46
  else if !zeros c 47 1 then some 47
  else if k.enable && k.dstX + k.size.1 > s.get (Od.H_ACTIVE p) then some 48
  else if k.enable && k.dstY + k.size.2 > s.get (Od.V_ACTIVE p) then some 50
  else if k.palKey > 255 && k.palKey != 0xFFFF then some 52
  else if !zeros c 54 10 then some 54
  else none

/-- Byte ranges that a surface's rows meet, block rows in one piece. -/
def LayerCfg.pageRanges (c : LayerCfg) : List (Nat × Nat) :=
  if indexed c.fmt then c.ranges.map (fun q => (q.2.2.1, q.2.2.2))
  else
    let (bw, bh) := blockDims c.target.bytes
    (List.range (ceilDiv c.srcH bh)).map (fun r => (c.va + r * c.pitch * 256, ceilDiv c.srcW bw * 256))

/-- Translate every page of a surface: the first faulting address. -/
def State.probeSurface (s : State) (c : LayerCfg) : State × Option Nat :=
  c.pageRanges.foldl (fun (a : State × Option Nat) q =>
    if a.2.isSome then a else
    let r := a.1.probe c.client q.1 q.2 false
    (r.1, r.2.1)) (s, none)

/-- Signed 32-bit difference of a frame count and a target (R154, R321). -/
def frameDue (f target : Nat) : Bool := subMod 32 f target < 2 ^ 31

/-- A layer is late for a frame: counted once for it (R308, R321). -/
def State.lateFor (s : State) (p l f : Nat) : State :=
  let x := s.pipe p
  if x.late.contains (l, f % 2 ^ 32) then s
  else (s.putPipe p { x with late := (l, f % 2 ^ 32) :: x.late }).inc (Od.LATE_COUNT (layerNo p l))

/-- A PRESENT aimed at a frame already begun is late (R321). -/
def State.lateNow (s : State) (p l target : Nat) : State :=
  if s.framing p && frameDue (s.get (Od.FRAME_COUNT p)) target then s.lateFor p l target else s

/-- PRESENT: checked, its surface translated, then ready; its job waits for the release. -/
def State.presentCmd (s : State) (j : Job) (c : List Byte) : State :=
  match s.presentBad j c with
  | some off => s.faultCmd j.id 2 0 off 0
  | none =>
    let k := presentCfg j c
    let p := fld c 24 1
    let l := fld c 25 1
    match (if k.enable then s.probeSurface k else (s, none)) with
    | (s, some va) => (s.xlatFault k.client va).faultCmd j.id 4 0 0 va
    | (s, none) =>
      let at_ := bitOf k.flagsByte 6
      let s := if at_ then s.lateNow p l (fld c 28 4) else s
      let x := s.pipe p
      let r : Ready := { layer := l, cfg := k, target := if at_ then some (fld c 28 4) else none, at_ := s.now }
      (s.putPipe p { x with ready := x.ready ++ [r] }).putJob { j with blocked := true }

/-! ## The latch (R308, R321, R322) -/

/-- The latched state of a layer, as its objects show it (R330). -/
def State.showLayer (s : State) (p l : Nat) (c : LayerCfg) : State :=
  let n := layerNo p l
  s.sets [(Od.L_STATE n, (if c.enable then 2 ^ 63 else 0) + c.fmt * 2 ^ 40 + c.flagsByte * 2 ^ 32 + c.handle % 2 ^ 32),
          (Od.L_VA n, c.va),
          (Od.L_RECT n, c.dstX + c.dstY * 2 ^ 16 + c.size.1 * 2 ^ 32 + c.size.2 * 2 ^ 48)]

/-- A PRESENT's job still waits for it. -/
def State.presenting (s : State) (id : JobId) : Bool :=
  match s.job id with
  | some j => j.phase == .started && j.blocked
  | none => false

/-- Of two ready PRESENTs, the one that became ready last; ties go to the higher queue number. -/
def Ready.after (a b : Ready) : Bool :=
  b.at_ < a.at_ || (a.at_ == b.at_ && b.cfg.job.q.val ≤ a.cfg.job.q.val)

def lastReady (l : List Ready) : Option Ready :=
  l.foldl (fun (b : Option Ready) r => match b with
    | some o => if r.after o then some r else b
    | none => some r) none

/-- A layer latches a PRESENT; the buffer it replaces waits for its release. -/
def State.latchReady (s : State) (p f : Nat) (r : Ready) : State :=
  let x := s.pipe p
  let old := x.layers.filter (fun l => l.layer == r.layer)
  let rest := x.layers.filter (fun l => l.layer != r.layer)
  let new : Shown := { layer := r.layer, cfg := r.cfg, frames := 0, first := f % 2 ^ 32, fault := none }
  let s := s.putPipe p { x with layers := if r.cfg.enable then rest ++ [new] else rest,
                                releasing := x.releasing ++ old }
  let s := s.showLayer p r.layer r.cfg
  if r.cfg.enable then s else s.endUnshown r.cfg.job

/-- The command that a display job is at, or will begin with. -/
def State.cmdAhead (s : State) (j : Job) : List Byte :=
  let slot := if j.slot.length == 64 then j.slot else (s.rd j.client (s.slotVa j) 64).2.1
  if slotOpcode slot == 1 then (s.rd j.client (fld slot 24 8 + 64 * j.taken) 64).2.1 else slot

/-- A PRESENT aimed at frame f of a layer is not ready. -/
def State.aimedAt (s : State) (p l f : Nat) : Bool :=
  s.qs.jobs.any (fun j =>
    engineOf j.id.q.val == 4 && j.phase != .finished && !j.blocked &&
      (let c := s.cmdAhead j
       slotOpcode c == 0x10 && fld c 24 1 == p && fld c 25 1 == l && bitOf (fld c 26 1) 6 && fld c 28 4 == f % 2 ^ 32))

/-- A layer at t_F of frame f. Where a PRESENT aimed at f is not ready it is late and latches nothing: it shows what it
showed, or nothing (R308; log entry 26). Otherwise it latches (R321). -/
def State.latchLayer (s : State) (p f l : Nat) : State :=
  let x := s.pipe p
  if s.aimedAt p l f then
    let s := s.lateFor p l f
    if s.get (Od.LATE_POLICY (layerNo p l)) == 1 then
      s.putPipe p { s.pipe p with dropped := l :: (s.pipe p).dropped }
    else s
  else
    let due := fun (r : Ready) => r.layer == l && (match r.target with
      | some t => frameDue f t
      | none => true)
    let mine := x.ready.filter due
    let s := s.putPipe p { x with ready := x.ready.filter (fun r => !due r) }
    match lastReady mine with
    | some r => (mine.filter (· != r)).foldl (fun s o => s.endUnshown o.cfg.job) (s.latchReady p f r)
    | none => s

/-- Layers that presentations feed: not a Millrace L0. -/
def State.presentLayers (s : State) (p : Nat) : List Nat :=
  if s.on (Od.MR_EN p) then [1, 2, 3] else [0, 1, 2, 3]

/-- Millrace settings at t_F (R309). -/
def State.mrLatch (s : State) (p : Nat) : MrLatch :=
  { poseFlag := s.get (Od.MR_POSE_FLAG p), poseVa0 := s.get (Od.MR_POSE_VA0 p), poseVa1 := s.get (Od.MR_POSE_VA1 p),
    srcPoseVa := s.get (Od.MR_SRC_POSE_VA p), focal := s.get (Od.MR_FOCAL p), fbValid := s.on (Od.MR_FB_VALID p),
    fbVa := s.get (Od.MR_FB_VA p), fbW := s.get (Od.MR_FB_W p), fbH := s.get (Od.MR_FB_H p),
    fbPitch := s.get (Od.MR_FB_PITCH p), fbPoseVa := s.get (Od.MR_FB_POSE_VA p) }

/-- A frame begins frozen (R319, R327, R349, R353). -/
def State.freezes (s : State) (p : Nat) : Bool :=
  s.on (Od.FREEZE p) || s.on Od.GOV_HOLD || s.get Od.CAS_HOLD_STATE != 0 || (s.pipe p).freezeNext

/-- The buffers shown in the frame that begins have been shown once more. -/
def State.countShown (s : State) (p : Nat) : State :=
  let x := s.pipe p
  let on := x.shown.map (fun l => l.cfg.job)
  let more := fun (l : Shown) => if on.contains l.cfg.job then { l with frames := l.frames + 1 } else l
  s.putPipe p { x with layers := x.layers.map more, releasing := x.releasing.map more }

/-- Frame `f` of a pipe begins now: t_F. -/
def State.frameBegin (s : State) (p f : Nat) : State :=
  let s := s.settleFifo p
  let x := s.pipe p
  let frozen := s.freezes p
  let x := { x with
    tF := s.now, scanning := true, frozen := frozen, blank := s.get Od.CAS_HOLD_STATE == 2, abandoned := false,
    freezeNext := false, dropped := [], mr := s.mrLatch p, bg := s.get (Od.BG_COLOR p), chk := s.on (Od.OUTCHK_EN p),
    unchecked := s.get (Od.LINK_STATE p) != 2,
    bands := if s.on (Od.MR_EN p) then List.replicate (bandCount (s.get (Od.V_ACTIVE p))) .pending else [],
    bandOut := none, pose := none, rows := [], underrunSeen := false, missing := [], early := [],
    palActive := if frozen then x.palActive else padTo 1024 (s.getDom (Od.PALETTE p)) }
  let s := s.putPipe p x
  if frozen then
    -- presentations are not late for a frozen frame
    let x := s.pipe p
    ((s.putPipe p { x with late := x.late ++ (s.presentLayers p).map (fun l => (l, f % 2 ^ 32)) }).countShown p).when
      (s.opRunning .memTrain) (·.holdEarly p)
  else
    (((s.presentLayers p).foldl (fun s l => s.latchLayer p f l) s).countShown p).when (s.opRunning .memTrain)
      (·.holdEarly p)

/-! ## Start and stop of a pipe (R317, R318) -/

/-- The pipe stops: every buffer is released, and waiting PRESENTs complete. DESIGN CHOICE: its layers' objects then read 0,
as nothing is latched (log entry 40). -/
def State.pipeStop (s : State) (p : Nat) : State :=
  let x := s.pipe p
  let s := s.putPipe p { Reset.pipe with palActive := x.palActive, good := none }
  let s := (x.layers ++ x.releasing).foldl State.releaseBuf s
  let s := x.ready.foldl (fun s r => s.endUnshown r.cfg.job) s
  (List.range 4).foldl (fun s l => s.sets [(Od.L_STATE (layerNo p l), 0), (Od.L_VA (layerNo p l), 0),
    (Od.L_RECT (layerNo p l), 0)]) s

/-- The pipe starts with frame 0; its first line of blanking is a tick where pipe 0 is the source. -/
def State.pipeStart (s : State) (p : Nat) : State :=
  let x := s.pipe p
  let s := s.putPipe p { Reset.pipe with palActive := x.palActive, ready := x.ready }
  let s := (s.set (Od.PIPE_EN p) 1).set (Od.FRAME_COUNT p) 0
  let s := if s.on (Od.MR_EN p) then s.set (Od.MR_PITCH p) (ceilDiv (4 * s.get (Od.H_ACTIVE p)) 64 * 64) else s
  let s := { s with mem := { s.mem with fifos := mdel s.mem.fifos p } }
  let s := if p == 0 then s.sourceEdge 0 s.now else s
  s.frameBegin p 0

/-- The next t_F of a pipe has come: the frame ends where it was not ended, and the next begins, or the pipe stops. -/
def State.frameStart (s : State) (p : Nat) : State :=
  let x := s.pipe p
  let r := s.frameNs p
  if !s.framing p || s.now < x.tF + ceilDiv r.1 r.2 then s else
  let s := s.scanEnd p
  if x.stopping then s.pipeStop p
  else
    let s := if p == 0 then s.sourceEdge 0 s.now else s
    let f := min (2 ^ 48 - 1) (s.get (Od.FRAME_COUNT p) + 1)
    (s.set (Od.FRAME_COUNT p) f).frameBegin p f

/-- Active pixel rate of a pipe in pixels per second (R313). -/
def State.pixelRate (s : State) (p : Nat) : Rat :=
  mkRat (s.get (Od.H_ACTIVE p) * s.get (Od.V_ACTIVE p) * s.get (Od.PCLK_KHZ p) * 1000 : Nat) (s.hTotal p * s.vTotal p)

/-- The Millrace conditions of R310. -/
def State.millraceOk (s : State) (p : Nat) : Bool :=
  let w := s.get (Od.H_ACTIVE p)
  let part := s.get (Od.MR_PART p)
  let own := s.get (Od.PART_ACT_OWNER part)
  s.vBlank p ≥ 32 && s.get (Od.MR_SLOTS p) ≥ s.get (Od.MR_LEAD p) + 2 &&
    s.partBanks part != 0 && s.get (Od.PART_ACT_KIND part) == 3 && (own == s.get (Od.PIPE_OWNER p) || own == 0xFF) &&
    s.get (Od.MR_OFFSET p) + s.get (Od.MR_SLOTS p) * 32 * (ceilDiv (4 * w) 64 * 64) ≤ s.partBytes part &&
    (4 * w + 256) * 5 * s.get (Od.PCLK_KHZ p) ≤ 48000000 * s.hTotal p

/-- The conditions of R317. -/
def State.pipeEnOk (s : State) (p : Nat) : Bool :=
  let w := s.get (Od.H_ACTIVE p)
  let h := s.get (Od.V_ACTIVE p)
  let others := ((List.range 4).filter (fun q => q != p && s.pipeOn q)).foldl (fun (r : Rat) q => r + s.pixelRate q) 0
  s.get (Od.LINK_STATE p) == 2 && 64 ≤ w && w ≤ 8192 && 64 ≤ h && h ≤ 8192 &&
    s.pixelRate p ≤ 1200000000 && s.pixelRate p + others ≤ 2400000000 && (!s.on (Od.MR_EN p) || s.millraceOk p)

/-- A write of PIPE_EN (R111, R317, R318, R378). -/
def State.wrPipeEn (s : State) (p v : Nat) : WRes :=
  if s.selftesting then .no s Ab.BUSY
  else if v == 0 then
    if s.pipeOn p then .ok ((s.set (Od.PIPE_EN p) 0).putPipe p { s.pipe p with stopping := true }) else .ok s
  else if s.opRunning .memTrain then .no s Ab.BUSY
  else if !s.pipeEnOk p then .no s Ab.RANGE
  -- an enabled pipe runs on (log entry 26)
  else if s.pipeOn p then .ok s
  else .ok ((if (s.pipe p).stopping then (s.scanEnd p).pipeStop p else s).pipeStart p)

/-! ## Ports and links (R311 to R316) -/

/-- The default of `UNDERRUN_MODE` for an interface (R70, R330). -/
def underrunDefault (pif : Nat) : Nat := if pif == 0 then 0xFF else if pif == 4 || pif == 6 then 1 else 0

/-- A write of PIPE_IF (R311). -/
def State.wrPipeIf (s : State) (p v : Nat) : WRes :=
  if (portOfIf v).isSome && (List.range 4).any (fun q => q != p && portOfIf (s.get (Od.PIPE_IF q)) == portOfIf v)
  then .no s Ab.BUSY
  else if s.get (Od.PIPE_IF p) == v then .ok s
  else .ok ((s.sets [(Od.PIPE_IF p, v), (Od.UNDERRUN_MODE p, underrunDefault v)]).linkGone p 0)

/-- A write to a timing field, `BPC`, `DSI_PHY` or `DSI_MODE` that changes it takes the link down (R315). -/
def State.wrTiming (s : State) (p k v : Nat) : State :=
  if s.get k == v then s else (s.set k v).linkGone p 0

/-- Step 1 of R315. -/
def State.trainOk (s : State) (p : Nat) : Bool :=
  let clk := s.get (Od.PCLK_KHZ p)
  let n := s.hTotal p * s.vTotal p
  s.get (Od.PIPE_IF p) != 0 &&
    [Od.H_ACTIVE p, Od.H_FP p, Od.H_SYNC p, Od.H_BP p, Od.V_ACTIVE p, Od.V_FP p, Od.V_SYNC p, Od.V_BP p].all
      (fun k => s.get k != 0) &&
    25000 ≤ clk && clk ≤ 1400000 && (!s.pipeOn p || s.get (Od.LINK_STATE p) == 3) && 5 * clk ≤ 2 * n && n ≤ 50 * clk

/-- A write of LINK_TRAIN (R315): a failure of step 1 completes the operation at once. -/
def State.wrLinkTrain (s : State) (p : Nat) (via : Path) : WRes :=
  if s.opRunning (.linkTrain p) then .no s Ab.BUSY
  else if s.trainOk p then .start s (.linkTrain p) via (Od.LINK_TRAIN p) (fun s => (s.linkGone p 1).pixelPll p)
  else
    let r := WRes.start s (.linkTrain p) via (Od.LINK_TRAIN p) id
    if r.code == Ab.OK then { r with st := r.st.finishOp (handleSlot r.handle) Ab.RANGE } else r

/-- Required rate of a pipe's pixels in kb/s (R314). -/
def State.needKbs (s : State) (p : Nat) : Nat := s.get (Od.PCLK_KHZ p) * 3 * s.get (Od.BPC p)

/-- Lanes and rate of a DSI link (R315 step 3); C-PHY has up to 3 trios, D-PHY 1, 2 or 4 lanes here (R312, R330). -/
def State.dsiRate (s : State) (p : Nat) : Option (Nat × Nat) :=
  let cphy := s.get (Od.DSI_PHY p) == 1
  let lanes := s.get (Od.LINK_LANES_MAX p)
  let rate := if cphy then 10 * ceilDiv (s.needKbs p) (20520 * lanes) else 10 * ceilDiv (s.needKbs p) (9000 * lanes)
  if (cphy && lanes > 3) || (!cphy && lanes == 3) || lanes == 0 || rate > min (s.get (Od.LINK_RATE_MAX p)) 4500 then none
  else some (lanes, rate)

/-- Candidates of a DP link in the order they are tried (R315 step 4). -/
def State.dpCandidates (s : State) (p : Nat) (r : OpResult) : List (Nat × Nat) :=
  [4, 2, 1].flatMap (fun lanes => ([1620, 2700, 5400, 8100].filter (fun rate =>
    lanes ≤ min r.sinkLanes (s.get (Od.LINK_LANES_MAX p)) && rate ≤ min r.sinkRate (s.get (Od.LINK_RATE_MAX p)) &&
      s.needKbs p ≤ lanes * rate * 800)).map (fun rate => (lanes, rate)))

/-- The link that training finds: none where it fails. -/
def State.trainResult (s : State) (p : Nat) (r : OpResult) : Option (Nat × Nat) :=
  if s.get (Od.LINK_STATE p) != 1 then none
  else if s.get (Od.PIPE_IF p) ≤ 2 then s.dsiRate p
  else if !r.hpd then none
  else (s.dpCandidates p r).find? (fun c => r.trains.contains c)

/-- A command shows the level at a pipe's HPD pin at this moment. -/
def State.sawHpd (s : State) (p : Nat) (high : Bool) : State :=
  { s.set (Od.HPD p) (if high then 1 else 0) with boot := { s.boot with hpdAt := mset s.boot.hpdAt p s.now } }

/-- Training ends: the state of the link, and the operation's result (R315). DESIGN CHOICE: a training that fails before its
candidates are tried leaves the link DOWN too (log entry 41). -/
def State.linkTrainDone (s : State) (p : Nat) (r : OpResult) : State × Nat :=
  let s := s.pixelPllLock p
  let s := if 3 ≤ s.get (Od.PIPE_IF p) then s.sawHpd p r.hpd else s
  match s.trainResult p r with
  | some (lanes, rate) => (s.sets [(Od.LINK_LANES p, lanes), (Od.LINK_RATE p, rate), (Od.LINK_STATE p, 2)], Ab.OK)
  | none => (s.set (Od.LINK_STATE p) 0, Ab.RANGE)

/-- The pipe that drives a DP port. -/
def State.dpPipe (s : State) (port : Nat) : Option Nat :=
  (List.range 4).find? (fun p => portOfIf (s.get (Od.PIPE_IF p)) == some (2 + port))

/-- HPD has been low for 2 ms (R316). -/
def State.hpdLow (s : State) (port : Nat) : State :=
  match s.dpPipe port with
  | none => s
  | some p =>
    let s := s.sawHpd p false
    if s.get (Od.LINK_STATE p) != 2 then s
    else ((s.set (Od.LINK_STATE p) 3).putPipe p { s.pipe p with unchecked := true }).post 4 4 (0x6000 + p) p 0

def State.hpdPulse (s : State) (port : Nat) : State :=
  match s.dpPipe port with
  | none => s
  | some p => if s.get (Od.LINK_STATE p) == 2 then s.post 4 5 (0x6000 + p) p 0 else s

/-! ## LINK_XFER and PALETTE (R320, R323) -/

/-- First offending byte of a LINK_XFER: kinds 0 and 1 are for a DSI link, the others for AUX. -/
def State.xferBad (s : State) (j : Job) (c : List Byte) : Option Nat :=
  let p := fld c 24 1
  let kind := fld c 25 1
  let pif := s.get (Od.PIPE_IF p)
  let len := fld c 27 1
  if p > 3 || !s.ownsPipe j.client p then some 24
  else if kind > 5 || (if kind ≤ 1 then pif == 0 || pif > 2 else pif < 3) then some 25
  else if (if kind % 2 == 1 then len == 0 || len > 12 else len > 16) then some 27
  else if !zeros c 48 16 then some 48
  else none

def State.linkXferCmd (reply : LinkReply) (s : State) (j : Job) (c : List Byte) : State :=
  match s.xferBad j c with
  | some off => s.faultCmd j.id 2 0 off 0
  | none =>
    let p := fld c 24 1
    let kind := fld c 25 1
    let len := fld c 27 1
    if !s.mayTransfer p then s else
    let read := kind % 2 == 1
    let s := s.emit (.linkXfer p kind (fld c 26 1) (fld c 28 4) (if read then [] else slice c 32 len) (if read then len else 0))
    let got := if read then reply.bytes.take len else []
    s.endCmd j.id St.OK (toLe 2 reply.result.val ++ toLe 2 got.length ++ got) 0

/-- Entries written into the staged palette from `first`, wrapping past entry 255. -/
def putPalette (pal : List Byte) (first n : Nat) (src : List Byte) : List Byte :=
  (List.range 256).flatMap (fun i =>
    let k := (i + 256 - first) % 256
    if k < n then slice src (4 * k) 4 else slice pal (4 * i) 4)

def State.paletteCmd (s : State) (j : Job) (c : List Byte) : State :=
  let p := fld c 24 1
  if p > 3 || !s.ownsPipe j.client p then s.faultCmd j.id 2 0 24 0
  else match reservedAt c [(27, 5), (40, 24)] with
    | some off => s.faultCmd j.id 2 0 off 0
    | none =>
      let n := fld c 26 1 + 1
      match s.rd (s.pipeClient p) (fld c 32 8) (4 * n) with
      | (s, _, some f) => s.faultCmdMem j.id f 0 0
      | (s, b, none) =>
        (s.setDom (Od.PALETTE p) (putPalette (padTo 1024 (s.getDom (Od.PALETTE p))) (fld c 25 1) n b)).endCmd j.id St.OK [] 0

/-! ## Commands -/

/-- `FRAME_START` (R300, R308, R321). -/
def execFrameStart (dt : Nat) (p : Fin 4) (u : List Upset) (s : State) : Res :=
  .next (((s.advance dt).upsets u).frameStart p.val)

/-- `PRESENT` (R321). -/
def execPresent (dt : Nat) (j : JobId) (s : State) : Res := .next ((s.advance dt).runCmd j 4 0x10 State.presentCmd)

/-- `LINK_XFER` (R323). -/
def execLinkXfer (dt : Nat) (j : JobId) (reply : LinkReply) (s : State) : Res :=
  .next ((s.advance dt).runCmd j 4 0x11 (State.linkXferCmd reply))

/-- `PALETTE` (R323). -/
def execPalette (dt : Nat) (j : JobId) (s : State) : Res := .next ((s.advance dt).runCmd j 4 0x12 State.paletteCmd)

/-- `HPD_LOW` (R316). -/
def execHpdLow (dt : Nat) (port : Fin 2) (s : State) : Res := .next ((s.advance dt).hpdLow port.val)

/-- `HPD_PULSE` (R316). -/
def execHpdPulse (dt : Nat) (port : Fin 2) (s : State) : Res := .next ((s.advance dt).hpdPulse port.val)

end Sys2Proof.Machine
end

