-- ==== Sys2Proof/Machine/Leat.lean ====
section
/-! DEFINITION. The Leat cascade: ports, received packets, Leat commands, seams, formation, dissolution, slips and losses
(R332 to R350), and packets refused for a power domain (R98). Payload layouts that the spec leaves open are log entry 21. -/

namespace Sys2Proof.Machine

/-! ## Transfers of this device (R343 to R345) -/

def State.xferOf (s : State) (id : Nat) : Option LeatXfer := s.leat.xfers.find? (fun x => x.id == id)

def State.putXfer (s : State) (x : LeatXfer) : State :=
  { s with leat := { s.leat with xfers := x :: s.leat.xfers.filter (fun y => y.id != x.id) } }

/-- A transfer is over: nothing more is awaited or sent for it. -/
def State.dropXfer (s : State) (id : Nat) : State :=
  { s with leat := { s.leat with xfers := s.leat.xfers.filter (fun y => y.id != id),
                                 refused := s.leat.refused.filter (fun r => (pktOf r.pkt).xfer != id) } }

/-- A transfer fails: its job ends FAULT (R345). -/
def State.failXfer (s : State) (x : LeatXfer) (cause va : Nat) : State := (s.dropXfer x.id).faultCmd x.job cause 0 0 va

/-- A transfer of a job that has ended sends no later packet; it stays until what was sent has been delivered, and the job's
record with it (R364). -/
def State.closeXfer (s : State) (x : LeatXfer) : State :=
  let t := s.dropXfer x.id
  if (s.job x.job).isSome && !x.waiting.isEmpty then t.putXfer { x with doorbell := none } else t

/-- The job of a transfer has ended. -/
def State.deadXfer (s : State) (x : LeatXfer) : Bool :=
  match s.job x.job with
  | some j => j.phase != .started
  | none => true

/-- Transfers of jobs that have ended are closed. -/
def State.pruneXfers (s : State) : State := (s.leat.xfers.filter s.deadXfer).foldl State.closeXfer s

/-- Transfers to members that are no longer reachable end (R345, R348). -/
def State.failUnreachable (s : State) : State :=
  let lost := fun (d : Nat) => (s.routeOf d).isNone
  (s.leat.xfers.filter (fun x => (x.waiting ++ (s.leat.refused.filter (fun r => (pktOf r.pkt).xfer == x.id)).map
    (fun r => (pktOf r.pkt).dst)).any lost)).foldl (fun s x => s.failXfer x 6 0) s

/-! ## DONE (R343, R344, R346, R347) -/

/-- Kinds of a DONE packet. -/
def doneOk : Nat := 0
def doneLate : Nat := 1
def doneRefused : Nat := 2
def doneFault : Nat := 3
def doneDoorbell : Nat := 4
def doneError : Nat := 5

/-- A DONE packet to the sender of a transfer: its kind, an abort code and an address. -/
def State.sendDone (s : State) (p : Pkt) (kind code va : Nat) : State :=
  s.send { s.mkPkt PT.DONE p.src false p.xfer with
    data := toLe 2 kind ++ toLe 2 code ++ zeroBytes 4 ++ toLe 8 va }

/-- The DOORBELL packet of a transfer, with the cascade tick number of the transfer's start (R333). -/
def State.doorbellPkt (s : State) (dst : Nat) (bcast : Bool) (x : LeatXfer) (q tail : Nat) : Pkt :=
  { s.mkPkt PT.DOORBELL dst bcast x.id with ctick := x.ctick, data := [BitVec.ofNat 8 q, 0] ++ toLe 2 tail }

/-- Every member has answered: the doorbell follows the data, or the job completes. -/
def State.xferSettled (s : State) (x : LeatXfer) : State :=
  if !x.waiting.isEmpty || s.leat.refused.any (fun r => (pktOf r.pkt).xfer == x.id) then s
  else match x.doorbell with
    | some (q, tail) =>
      let s := s.putXfer { x with doorbell := none, waiting := x.members }
      match x.members with
      | [d] => s.send (s.doorbellPkt d false x q tail)
      | _ => s.send (s.doorbellPkt 0 true x q tail)
    | none => (s.dropXfer x.id).endCmd x.job St.OK (toLe 2 x.code) 0

/-- A doorbell refused for a domain is kept and sent again at each of the next three ticks (R98, R344). -/
def State.keepRefused (s : State) (x : LeatXfer) (dst port : Nat) (p : Pkt) : State :=
  let mine := fun (r : RefusedPkt) => (pktOf r.pkt).xfer == x.id && (pktOf r.pkt).dst == dst
  match s.leat.refused.find? mine with
  | some r =>
    if r.tries ≥ 3 then
      ({ s with leat := { s.leat with refused := s.leat.refused.filter (fun r => !mine r) } }.inc Od.CAS_DOMAIN_LOSS).post
        6 6 0x8000 dst 0
    else { s with leat := { s.leat with refused := s.leat.refused.map (fun r =>
        if mine r then { r with tick := s.get Od.TICK_COUNT } else r) } }
  | none =>
    let r : RefusedPkt := { port := port, pkt := p.bytes, tries := 0, tick := s.get Od.TICK_COUNT }
    { s with leat := { s.leat with refused := s.leat.refused ++ [r] } }

/-- The refused packet of a member has been accepted. -/
def State.clearRefused (s : State) (id dst : Nat) : State :=
  { s with leat := { s.leat with refused := s.leat.refused.filter (fun r =>
      !((pktOf r.pkt).xfer == id && (pktOf r.pkt).dst == dst)) } }

/-- The doorbell that a Leat command asks for. -/
def leatDoorbell (c : List Byte) : Nat × Nat := (fld c 46 1, fld c 48 2)

/-- DONE returns from a member. -/
def State.doneFrom (s : State) (p : Pkt) : State :=
  match s.xferOf p.xfer with
  | none => s
  | some x =>
    if !x.waiting.contains p.src then s else
    let kind := fld p.data 0 2
    let code := fld p.data 2 2
    let x := { x with waiting := x.waiting.filter (· != p.src) }
    let s := s.putXfer x
    if kind == doneRefused then s.failXfer x 6 0
    else if kind == doneFault then s.failXfer x 4 (fld p.data 8 8)
    else if kind == doneError then s.failXfer x 5 0
    else if kind == doneLate then
      let x := { x with code := 1 }
      (s.putXfer x).xferSettled x
    else if kind == doneDoorbell then
      let x := { x with code := code }
      let s := s.putXfer x
      let s := if code == Ab.DOMAIN_CLOSING || code == Ab.DOMAIN_OFF then
          (match s.job x.job with
           | some j =>
             let d := leatDoorbell (s.currentCmd j)
             if s.deadXfer x then s
             else s.keepRefused x p.src ((s.routeOf p.src).getD 0) (s.doorbellPkt p.src false x d.1 d.2)
           | none => s)
        else s.clearRefused x.id p.src
      s.xferSettled x
    else s.xferSettled x

/-- The refused packets are sent again at the next tick (R98). -/
def State.retryRefused (s : State) : State :=
  s.leat.refused.foldl (fun s r =>
    let p := pktOf r.pkt
    match s.xferOf p.xfer with
    | some x =>
      if r.tick == s.get Od.TICK_COUNT || x.waiting.contains p.dst then s
      else
        let again := { r with tries := r.tries + 1, tick := s.get Od.TICK_COUNT }
        let s := { s with leat := { s.leat with refused := s.leat.refused.map (fun o => if o == r then again else o) } }
        (s.putXfer { x with waiting := x.waiting ++ [p.dst] }).send p
    | none => s) s

/-! ## Receiving data (R333, R343) -/

/-- Bytes of a transfer received so far; a failed transfer takes no more. -/
def State.rxGot (s : State) (p : Pkt) : Nat :=
  ((s.leat.rx.find? (fun r => r.src == p.src && r.id == p.xfer)).map (·.got)).getD 0

def rxFailed : Nat := 2 ^ 40

/-- Note the bytes of a transfer; forget it with its last packet. -/
def State.setRx (s : State) (p : Pkt) (got : Nat) : State :=
  let rest := s.leat.rx.filter (fun r => !(r.src == p.src && r.id == p.xfer))
  let r : RxXfer := { src := p.src, id := p.xfer, got := got }
  { s with leat := { s.leat with rx := if p.offset + p.data.length ≥ p.total then rest else r :: rest } }

/-- A DATA packet writes its payload at its address, in the translation of client 0. -/
def State.dataIn (s : State) (p : Pkt) : State :=
  let got := s.rxGot p
  if got ≥ rxFailed then s.setRx p rxFailed else
  match s.wr 0 p.addr p.data with
  | (s, some f) => (s.setRx p rxFailed).sendDone p (if f.cause == 4 then doneFault else doneError) 0 f.va
  | (s, none) =>
    let s := s.setRx p (got + p.data.length)
    if got + p.data.length ≥ p.total then s.sendDone p doneOk 0 0 else s

/-- A DOORBELL packet rings a queue as its owner would (R344). -/
def State.doorbellIn (s : State) (p : Pkt) : State :=
  let q := fld p.data 0 1 % 128
  let owner := s.get (Od.Q_OWNER q)
  match s.ring owner q (fld p.data 2 2) with
  | (t, code) =>
    let t := if code == Ab.OK then t else (t.inc (Od.Q_DB_ERR q)).winErr owner (0x4000 + q) code
    t.sendDone p doneDoorbell code 0

/-- The pieces of at most 256 bytes in which a transfer travels: offset and length. -/
def pieces256 (n : Nat) : List (Nat × Nat) :=
  (List.range (ceilDiv n 256)).map (fun i => (256 * i, min 256 (n - 256 * i)))

/-- READ_REQ reads local memory and returns it, then DONE (R343). -/
def State.readReqIn (s : State) (p : Pkt) : State :=
  match s.rd 0 p.addr p.total with
  | (s, _, some f) => s.sendDone p (if f.cause == 4 then doneFault else doneError) 0 f.va
  | (s, b, none) =>
    let s := (pieces256 p.total).foldl (fun (s : State) e =>
      s.send { s.mkPkt PT.READ_DATA p.src false p.xfer with
        addr := p.addr + e.1, offset := e.1, total := p.total, data := slice b e.1 e.2 }) s
    s.sendDone p doneOk 0 0

/-- READ_DATA writes fetched bytes at the local destination, in the translation of the job's client. -/
def State.readDataIn (s : State) (p : Pkt) : State :=
  match s.xferOf p.xfer with
  | none => s
  | some x =>
    match x.fetchVa, s.job x.job with
    | some va, some j =>
      if !x.waiting.contains p.src || j.phase != .started then s else
      match s.wr j.client (va + p.offset) p.data with
      | (s, some f) => s.failXfer x f.cause f.va
      | (s, none) => s
    | _, _ => s

/-! ## Seams (R346, R347) -/

/-- Ticks settled at a slot. -/
def State.seamTicks (s : State) (k : Nat) : List (Nat × Bool) := mgetD s.leat.seams k []

/-- A slot's tick n is settled, complete or filled: its flag holds the low 32 bits of n. -/
def State.settleSeam (s : State) (k n : Nat) (filled : Bool) : State :=
  let s := { s with leat := { s.leat with seams := mset s.leat.seams k (((n, filled) :: s.seamTicks k).take 4) } }
  let f := s.get (Od.SEAM_FLAG k)
  if f < 256 then s.setFlag false f (n % 2 ^ 32) else s

/-- The deadline of a slot for cascade tick n has passed. -/
def State.seamClosed (s : State) (k n : Nat) : Bool :=
  let d := subMod 48 n s.cascadeTick
  (s.seamTicks k).contains (n, true) || (d == 0 && s.get Od.CUR_BUCKET > s.get (Od.SEAM_DL_BUCKET k)) || 2 ^ 47 ≤ d

/-- A SEAM packet. A transfer that was refused takes no more packets. DEDUCED: an address of the half outside the Millpond is
answered as one that faults (log entry 44). -/
def State.seamIn (s : State) (p : Pkt) : State :=
  let k := p.slot
  let got := s.rxGot p
  if got ≥ rxFailed then s.setRx p rxFailed
  else if k > 7 || !s.on (Od.SEAM_EN k) || s.get (Od.SEAM_SRC k) != p.src ||
      p.addr + p.data.length > s.get (Od.SEAM_BYTES k) then (s.setRx p rxFailed).sendDone p doneRefused Ab.RANGE 0
  else if s.seamClosed k p.ctick then s.sendDone p doneLate 0 0
  else if subMod 48 p.ctick s.cascadeTick > 1 then s
  else
    let va := s.get (Od.SEAM_VA k) + p.ctick % 2 * s.get (Od.SEAM_BYTES k) + p.addr
    match s.placed 0 { off := 0, va := va, n := p.data.length, write := true, dram := false } with
    | (s, .elsewhere) => (s.setRx p rxFailed).sendDone p doneFault 0 va
    | (s, _) =>
    match s.wr 0 va p.data with
    | (s, some f) => (s.setRx p rxFailed).sendDone p (if f.cause == 4 then doneFault else doneError) 0 f.va
    | (s, none) =>
      let s := s.setRx p (got + p.data.length)
      if got + p.data.length ≥ p.total then ((s.settleSeam k p.ctick false).inc (Od.SEAM_OK k)).sendDone p doneOk 0 0
      else s

/-- The cascade tick whose deadline at a slot has passed last. -/
def State.deadTick (s : State) (k : Nat) : Nat :=
  if s.get Od.CUR_BUCKET > s.get (Od.SEAM_DL_BUCKET k) then s.cascadeTick else subMod 48 s.cascadeTick 1

/-- The deadline of an enabled slot: without a complete seam the previous half is copied. -/
def State.seamDeadline (s : State) (k : Nat) : State :=
  let n := s.deadTick k
  if !s.alive || !s.on (Od.SEAM_EN k) || !s.on Od.TICK_EN || s.tick.since == 0 || (s.seamTicks k).any (fun e => e.1 == n) then s
  else
    let size := s.get (Od.SEAM_BYTES k)
    let base := s.get (Od.SEAM_VA k)
    let r := s.rdThrough 0 (base + (n + 1) % 2 * size) size
    let s := (r.1.wr 0 (base + n % 2 * size) r.2.1).1
    ((s.settleSeam k n true).inc (Od.SEAM_LATE k)).gatherN 6 5 (0x8020 + k) k 0 1

/-- A write of SEAM_EN: a slot that is enabled owes nothing for a deadline that had passed before (R347). -/
def State.wrSeamEn (s : State) (k v : Nat) : State :=
  let was := s.on (Od.SEAM_EN k)
  let s := s.set (Od.SEAM_EN k) v
  s.when (v == 1 && !was) (fun s => { s with leat := { s.leat with
    seams := mset s.leat.seams k (((s.deadTick k, false) :: s.seamTicks k).take 4) } })

/-! ## Ticks of a follower (R338) -/

/-- A TICK packet from the master. A configured follower is FORMED at the first one of at least 3 ticks after its CONFIG
(R340 step 5). -/
def State.tickPkt (s : State) (p : Pkt) : State :=
  if !s.on Od.CAS_ROLE || s.get Od.CAS_MASTER != p.src then s else
  let s := { s with leat := { s.leat with tickPktAt := some s.now } }
  let off := subMod 48 p.ctick (s.get Od.TICK_COUNT)
  match s.leat.configured.filter (fun c => subMod 48 p.ctick c.2 < 2 ^ 47) with
  | some (members, _) =>
    let s := { s with leat := { s.leat with configured := none, resync := false } }
    s.sets [(Od.CAS_TICK_OFFSET, off), (Od.CAS_STATE, 2), (Od.CAS_MEMBERS, members)]
  | none =>
    if !s.inCascade then s
    else if s.leat.resync then { s with leat := { s.leat with resync := false } }.set Od.CAS_TICK_OFFSET off
    else if s.cascadeTick == p.ctick then s
    else ((s.set Od.CAS_TICK_OFFSET off).inc Od.CAS_SLIP).post 6 2 0x8000 0 off

/-- 100 µs after a follower's tick without a TICK packet: the offset is taken from the next one, and the slip counts. -/
def State.tickPktTimeout (s : State) : State :=
  if s.alive && s.on Od.CAS_ROLE && s.inCascade && s.tick.since != 0 && s.tick.lastAt + 100000 ≤ s.now &&
      s.leat.timeoutFor != some s.tick.lastAt && (match s.leat.tickPktAt with
        | some t => t < s.tick.lastAt
        | none => true)
  then ({ s with leat := { s.leat with timeoutFor := some s.tick.lastAt, resync := true } }.inc Od.CAS_SLIP).post
    6 2 0x8000 0 (s.get Od.CAS_TICK_OFFSET)
  else s

/-! ## Formation (R340) -/

/-- The state that a refused formation returns to. -/
def State.formBack (s : State) : Nat := if s.get Od.CAS_MEMBERS == 0 then 0 else 3

/-- A write of 0x6A5C to CAS_FORM. -/
def State.wrCasForm (s : State) (via : Path) : WRes :=
  if s.on Od.CAS_ROLE then .no s Ab.RANGE
  else
    let r := WRes.start s .casForm via Od.CAS_FORM id
    if r.code != Ab.OK then r
    else if !s.on Od.TICK_EN || !s.domOn 10 || !(s.get Od.CAS_STATE == 0 || s.get Od.CAS_STATE == 3) then
      { r with st := r.st.finishOp (handleSlot r.handle) Ab.BUSY }
    else
      let t := r.st.set Od.CAS_STATE 1
      let t := { t with leat := { t.leat with replies := [], formAt := some t.now } }
      let (id, t) := t.takeXferId
      { r with st := t.send (t.mkPkt PT.DISCOVER 0 true id) }

/-- DISCOVER arrives: it is relayed and answered, or has come round to its sender. -/
def State.discoverIn (s : State) (port : Nat) (p : Pkt) : State :=
  if !s.on Od.CAS_ROLE && p.src == s.devId && s.get Od.CAS_STATE == 1 then
    let r : FormReply := { dev := p.src, deviceId := 0, stepping := 0, follower := false, state := 0, port := port,
                           inPort := port, ring := true }
    { s with leat := { s.leat with replies := s.leat.replies ++ [r] } }
  else
    let s := s.sendOn (1 - port) p
    let data := toLe 4 (s.get Od.DEVICE_ID) ++ toLe 1 (s.get Od.STEPPING) ++ toLe 1 s.devId ++
      toLe 1 (s.get Od.CAS_ROLE) ++ toLe 1 (s.get Od.CAS_STATE) ++ toLe 1 port
    s.sendOn port { s.mkPkt PT.DISCOVER_REPLY 0 true p.xfer with data := data }

/-- DISCOVER_REPLY: a forming master gathers it; a follower relays it. -/
def State.replyIn (s : State) (port : Nat) (p : Pkt) : State :=
  if s.on Od.CAS_ROLE then s.sendOn (1 - port) p
  else if s.get Od.CAS_STATE == 1 && s.leat.formAt.isSome then
    let r : FormReply :=
      { dev := fld p.data 5 1 % 8, deviceId := fld p.data 0 4, stepping := fld p.data 4 1, follower := fld p.data 6 1 == 1,
        state := fld p.data 7 1, port := port, inPort := fld p.data 8 1 % 2, ring := false }
    { s with leat := { s.leat with replies := s.leat.replies ++ [r] } }
  else s

/-- The checks of step 3 on the replies. -/
def State.formBad (s : State) (l : List FormReply) : Bool :=
  let devs := s.devId :: l.map (·.dev)
  l.any (fun r => r.ring || !r.follower || r.state == 2 || r.stepping != s.get Od.STEPPING) ||
    devs.eraseDups.length != devs.length ||
    (s.get Od.CAS_EXPECT != 0 && s.get Od.CAS_EXPECT != devMask (l.map (·.dev)))

/-- Routes that a follower takes: devices beyond it lie behind its other port, the rest behind the port of DISCOVER. -/
def routesFor (master : Nat) (l : List FormReply) (r : FormReply) : List Byte :=
  let side := (l.filter (fun o => o.port == r.port)).map (·.dev)
  let beyond := (side.dropWhile (· != r.dev)).drop 1
  (List.range 8).map (fun d =>
    BitVec.ofNat 8 (if d == r.dev then 0
      else if beyond.contains d then 2 - r.inPort
      else if d == master || l.any (fun o => o.dev == d) then 1 + r.inPort
      else 3))

/-- Step 4: the master's own routes, and CONFIG to each follower, nearest first. -/
def State.configure (s : State) (l : List FormReply) : State :=
  let members := devMask (s.devId :: l.map (·.dev))
  let s := s.sets ((List.range 8).map (fun d => (Od.CAS_ROUTE d,
    if d == s.devId then 0 else match l.find? (fun r => r.dev == d) with
      | some r => 1 + r.port
      | none => 3)))
  let s := s.sets [(Od.CAS_MASTER, s.devId), (Od.CAS_TICK_OFFSET, 0)]
  let s := l.foldl (fun (s : State) r =>
    let (id, s) := s.takeXferId
    s.send { s.mkPkt PT.CONFIG r.dev false id with
      data := [BitVec.ofNat 8 s.devId, BitVec.ofNat 8 members] ++ routesFor s.devId l r }) s
  { s with leat := { s.leat with formTick := some (s.get Od.TICK_COUNT + 3) } }

/-- The 10 ms for replies have ended. -/
def State.formationCheck (s : State) : State :=
  match s.leat.formAt with
  | none => s
  | some t =>
    if s.now < t + 10000000 then s else
    let l := s.leat.replies
    let s := { s with leat := { s.leat with formAt := none, replies := [] } }
    if s.formBad l then (s.set Od.CAS_STATE s.formBack).finishForm Ab.RANGE
    else s.configure l

/-- This device leaves its cascade (R341). -/
def State.leaveCascade (s : State) : State :=
  let s := s.sets ([(Od.CAS_STATE, 0), (Od.CAS_MEMBERS, 0), (Od.CAS_MASTER, 0xFF)] ++
    (List.range 8).map (fun d => (Od.CAS_ROUTE d, 3)))
  let s := { s with leat := { s.leat with configured := none, formTick := none, resync := false, substRun := 0 } }
  s.failUnreachable.setHold 0

/-- Members are lost: they are marked unreachable, and the cascade is DEGRADED (R348). -/
def State.loseMembers (s : State) (lost : List Nat) : State :=
  let lost := lost.filter (fun d => (s.routeOf d).isSome)
  if !s.inCascade || lost.isEmpty then s
  else
    let s := s.sets (lost.map (fun d => (Od.CAS_ROUTE d, 3)))
    let s := s.sets [(Od.CAS_MEMBERS, clearN (s.get Od.CAS_MEMBERS) (devMask lost)), (Od.CAS_STATE, 3)]
    (s.post 6 3 0x8000 0 (devMask lost)).failUnreachable

/-- First byte of a CONFIG that tells of lost members, the second being their bits (log entry 21). -/
def lossMark : Nat := 0xFE

/-- CONFIG: step 4 at a follower, or with no members the dissolution; or members are lost. -/
def State.configIn (s : State) (p : Pkt) : State :=
  if fld p.data 0 1 == lossMark then s.loseMembers ((List.range 8).filter (bitOf (fld p.data 1 1)))
  else if !s.on Od.CAS_ROLE then s
  else if fld p.data 1 1 == 0 then s.leaveCascade
  else
    let s := s.sets ((List.range 8).map (fun d => (Od.CAS_ROUTE d, fld p.data (2 + d) 1 % 4)))
    let s := s.set Od.CAS_MASTER (fld p.data 0 1)
    let s := { s with leat := { s.leat with configured := some (fld p.data 1 1, (p.ctick + 3) % 2 ^ 48) } }
    let s := if s.get Od.TICK_SRC == 1 then s else s.setTickSrc 1
    if s.on Od.TICK_EN then s else s.startTicks

/-- A write of 0xD150 to CAS_DISSOLVE. -/
def State.wrCasDissolve (s : State) : WRes :=
  if s.on Od.CAS_ROLE then .no s Ab.RANGE
  else if !s.inCascade then .ok s
  else
    let (id, s) := s.takeXferId
    let s := s.send { s.mkPkt PT.CONFIG 0 true id with data := [0xFF, 0] ++ List.replicate 8 3 }
    .ok s.leaveCascade

/-! ## Ports (R332, R348) -/

/-- A port trains and goes UP. -/
def State.linkUp (s : State) (port peer : Nat) : State :=
  if s.alive && s.domOn 10 && s.on (Od.LP_EN port) && s.get (Od.LP_STATE port) != 2 then
    s.sets [(Od.LP_STATE port, 2), (Od.LP_PEER port, peer)]
  else s

/-- A link of a formed cascade goes DOWN: members behind it are lost. DESIGN CHOICE: the device tells those on its other side
by a broadcast CONFIG, so that every member marks them (R348; log entry 21). -/
def State.degrade (s : State) (port : Nat) : State :=
  let lost := (List.range 8).filter (fun d => s.get (Od.CAS_ROUTE d) == port + 1)
  if !s.inCascade || lost.isEmpty then s
  else
    let (id, s) := (s.loseMembers lost).takeXferId
    s.sendOn (1 - port) { s.mkPkt PT.CONFIG 0 true id with data := [BitVec.ofNat 8 lossMark, BitVec.ofNat 8 (devMask lost)] }

/-- A port goes DOWN. -/
def State.linkDown (s : State) (port : Nat) : State :=
  if s.get (Od.LP_STATE port) == 2 then
    let s := s.portDown port
    -- R332: an enabled port trains again by itself
    let s := if s.on (Od.LP_EN port) then s.set (Od.LP_STATE port) 1 else s
    s.degrade port
  else s

/-- A write of LP_EN. -/
def State.wrLpEn (s : State) (port v : Nat) : WRes :=
  if v == 0 then
    if s.inCascade then .no s Ab.BUSY
    else if s.on (Od.LP_EN port) then .ok ((s.set (Od.LP_EN port) 0).portDown port) else .ok s
  else if s.on (Od.LP_EN port) then .ok s
  else .ok ((s.set (Od.LP_EN port) 1).set (Od.LP_STATE port) 1)

/-! ## Leat commands (R343 to R345) -/

/-- LEAT is ON and a device is a member reached through a port (R345). -/
def State.reaches (s : State) (dev : Nat) : Bool :=
  s.domOn 10 && s.inCascade && bitOf (s.get Od.CAS_MEMBERS) dev && (match s.routeOf dev with
    | some port => s.portUp port
    | none => false)

/-- Members reached through a port. -/
def State.others (s : State) : List Nat := (List.range 8).filter s.reaches

/-- A transfer of a job begins, and the job waits for its DONE. -/
def State.beginXfer (s : State) (j : Job) (members : List Nat) (fetch : Option Nat) (db : Option (Nat × Nat)) : Nat × State :=
  let (id, s) := s.takeXferId
  let x : LeatXfer := { id := id, job := j.id, members := members, waiting := members, fetchVa := fetch, doorbell := db,
                        code := 0, ctick := s.cascadeTick }
  (id, (s.putXfer x).putJob { j with blocked := true })

/-- LEAT_SEND. -/
def State.leatSendCmd (s : State) (j : Job) (c : List Byte) : State :=
  let src := fld c 24 8
  let dst := fld c 32 8
  let len := fld c 40 4
  let dev := fld c 44 1
  let all := dev == 0xFF
  if len == 0 || len > 2 ^ 31 then s.faultCmd j.id 2 0 40 0
  else if fld c 45 1 > 1 then s.faultCmd j.id 2 0 45 0
  else if fld c 45 1 == 1 && fld c 46 1 > 127 then s.faultCmd j.id 2 0 46 0
  else match reservedAt c [(47, 1), (50, 14)] with
    | some off => s.faultCmd j.id 2 0 off 0
    | none =>
      let members := if all then s.others else (s.others.filter (· == dev))
      if members.isEmpty then s.faultCmd j.id 6 0 44 src
      else if dst + len > 2 ^ 40 then s.faultCmd j.id 4 0 0 (max dst (2 ^ 40))
      else match s.rd j.client src len with
        | (s, _, some f) => s.faultCmdMem j.id f 0 0
        | (s, b, none) =>
          let (id, s) := s.beginXfer j members none (if fld c 45 1 == 1 then some (leatDoorbell c) else none)
          (pieces256 len).foldl (fun (s : State) e =>
            s.send { s.mkPkt PT.DATA dev all id with
              addr := dst + e.1, offset := e.1, total := len, data := slice b e.1 e.2 }) s

/-- Read `h` rows of `w` bytes at a pitch, in order, up to the first fault. -/
def State.bandRowBytes (s : State) (cl src pitch w h : Nat) : State × List Byte × Option MemFault :=
  (List.range h).foldl (fun (a : State × List Byte × Option MemFault) i =>
    if a.2.2.isSome then a else
    let r := a.1.rd cl (src + i * pitch) w
    (r.1, a.2.1 ++ r.2.1, r.2.2)) (s, [], none)

/-- SEAM_SEND: the rows of a band go to a slot, each at its place in the half. -/
def State.seamSendCmd (s : State) (j : Job) (c : List Byte) : State :=
  let src := fld c 24 8
  let w := fld c 32 4
  let h := fld c 36 4
  let dev := fld c 44 1
  if fld c 45 1 > 7 then s.faultCmd j.id 2 0 45 0
  else match reservedAt c [(46, 2), (56, 8)] with
    | some off => s.faultCmd j.id 2 0 off 0
    | none =>
      if !s.others.contains dev then s.faultCmd j.id 6 0 44 src
      else if w == 0 || h == 0 then s.endCmd j.id St.OK [] 0
      else
        let r := s.bandRowBytes j.client src (fld c 40 4) w h
        match r.2.2 with
        | some f => r.1.faultCmdMem j.id f 0 0
        | none =>
          let (id, s) := r.1.beginXfer j [dev] none none
          (List.range h).foldl (fun (s : State) i => (pieces256 w).foldl (fun (s : State) e =>
            s.send { s.mkPkt PT.SEAM dev false id with
              slot := fld c 45 1, addr := fld c 48 4 + i * fld c 52 4 + e.1, offset := i * w + e.1, total := w * h,
              data := slice r.2.1 (i * w + e.1) e.2 }) s) s

/-- LEAT_FETCH. -/
def State.leatFetchCmd (s : State) (j : Job) (c : List Byte) : State :=
  let remote := fld c 24 8
  let dst := fld c 32 8
  let len := fld c 40 4
  let dev := fld c 44 1
  if len == 0 || len > 2 ^ 31 then s.faultCmd j.id 2 0 40 0
  else match reservedAt c [(45, 19)] with
    | some off => s.faultCmd j.id 2 0 off 0
    | none =>
      if !s.others.contains dev then s.faultCmd j.id 6 0 44 remote
      else if remote + len > 2 ^ 40 then s.faultCmd j.id 4 0 0 (max remote (2 ^ 40))
      else match s.probe j.client dst len true with
        | (s, some va, _) => (s.xlatFault j.client va).faultCmd j.id 4 0 0 va
        | (s, none, _) =>
          let (id, s) := s.beginXfer j [dev] (some dst) none
          s.send { s.mkPkt PT.READ_REQ dev false id with addr := remote, total := len }

/-! ## Commands -/

/-- A packet arrives under the row of its type: taken from the link, forwarded, and given to `f` where it is for this
device. A packet of another known type is no event of the row. -/
def State.arrive (s : State) (typ port : Nat) (b : List Byte) (f : State → Pkt → State) : State :=
  if fld b 0 1 != typ && 1 ≤ fld b 0 1 && fld b 0 1 ≤ 10 then s else
  match s.pruneXfers.receive port b with
  | (s, none) => s
  | (s, some p) =>
    match s.forward port p with
    | (s, true) => f s p
    | (s, false) => s

/-- A packet of formation, which is relayed by its own rule. -/
def State.arriveForm (s : State) (typ port : Nat) (b : List Byte) (f : State → Nat → Pkt → State) : State :=
  if fld b 0 1 != typ && 1 ≤ fld b 0 1 && fld b 0 1 ≤ 10 then s else
  match s.receive port b with
  | (s, none) => s
  | (s, some p) => f s port p

/-- `LEAT_LINK_UP` (R332). -/
def execLeatLinkUp (dt : Nat) (port : Fin 2) (peer : Fin 8) (s : State) : Res :=
  .next ((s.advance dt).linkUp port.val peer.val)

/-- `LEAT_LINK_DOWN` (R332, R348). -/
def execLeatLinkDown (dt : Nat) (port : Fin 2) (s : State) : Res := .next ((s.advance dt).pruneXfers.linkDown port.val)

/-- `DATA` (R333). -/
def execData (dt : Nat) (port : Fin 2) (pkt : List Byte) (s : State) : Res :=
  .next ((s.advance dt).arrive PT.DATA port.val pkt State.dataIn)

/-- `DOORBELL_PACKET` (R344). -/
def execDoorbellPacket (dt : Nat) (port : Fin 2) (pkt : List Byte) (s : State) : Res :=
  .next ((s.advance dt).arrive PT.DOORBELL port.val pkt State.doorbellIn)

/-- `TICK_PACKET` (R338). -/
def execTickPacket (dt : Nat) (port : Fin 2) (pkt : List Byte) (s : State) : Res :=
  .next ((s.advance dt).arrive PT.TICK port.val pkt State.tickPkt)

/-- `SEAM` (R346, R347). -/
def execSeam (dt : Nat) (port : Fin 2) (pkt : List Byte) (s : State) : Res :=
  .next ((s.advance dt).arrive PT.SEAM port.val pkt State.seamIn)

/-- `READ_REQ` (R343). -/
def execReadReq (dt : Nat) (port : Fin 2) (pkt : List Byte) (s : State) : Res :=
  let s := s.advance dt
  let p := pktOf pkt
  -- R111: a read of DRAM waits until a retraining ends
  .next (if s.opRunning .memTrain && s.needsDram 0 p.addr p.total && (p.bcast || p.dst == s.devId) &&
      (s.receive port.val pkt).2.isSome then s
    else s.arrive PT.READ_REQ port.val pkt State.readReqIn)

/-- `READ_DATA` (R343). -/
def execReadData (dt : Nat) (port : Fin 2) (pkt : List Byte) (s : State) : Res :=
  .next ((s.advance dt).arrive PT.READ_DATA port.val pkt State.readDataIn)

/-- `DONE` (R343). -/
def execDone (dt : Nat) (port : Fin 2) (pkt : List Byte) (s : State) : Res :=
  .next ((s.advance dt).arrive PT.DONE port.val pkt State.doneFrom)

/-- `DISCOVER_PACKET` (R340). -/
def execDiscoverPacket (dt : Nat) (port : Fin 2) (pkt : List Byte) (s : State) : Res :=
  .next ((s.advance dt).arriveForm PT.DISCOVER port.val pkt State.discoverIn)

/-- `DISCOVER_REPLY` (R340). -/
def execDiscoverReply (dt : Nat) (port : Fin 2) (pkt : List Byte) (s : State) : Res :=
  .next ((s.advance dt).arriveForm PT.DISCOVER_REPLY port.val pkt State.replyIn)

/-- `CONFIG` (R340). -/
def execConfig (dt : Nat) (port : Fin 2) (pkt : List Byte) (s : State) : Res :=
  .next ((s.advance dt).arrive PT.CONFIG port.val pkt State.configIn)

/-- `LEAT_SEND` (R343, R344). -/
def execLeatSend (dt : Nat) (j : JobId) (s : State) : Res := .next ((s.advance dt).runCmd j 5 0x13 State.leatSendCmd)

/-- `SEAM_SEND` (R343, R346). -/
def execSeamSend (dt : Nat) (j : JobId) (s : State) : Res := .next ((s.advance dt).runCmd j 5 0x14 State.seamSendCmd)

/-- `LEAT_FETCH` (R343). -/
def execLeatFetch (dt : Nat) (j : JobId) (s : State) : Res := .next ((s.advance dt).runCmd j 5 0x15 State.leatFetchCmd)

/-- `LEAT_PACKET_RETRY` (R98). -/
def execLeatPacketRetry (dt : Nat) (s : State) : Res := .next ((s.advance dt).pruneXfers.retryRefused)

/-- `FORMATION_CHECK` (R340). -/
def execFormationCheck (dt : Nat) (s : State) : Res := .next ((s.advance dt).formationCheck)

/-- `TICK_PACKET_TIMEOUT` (R338). -/
def execTickPacketTimeout (dt : Nat) (s : State) : Res := .next ((s.advance dt).tickPktTimeout)

/-- `SEAM_DEADLINE` (R347). -/
def execSeamDeadline (dt : Nat) (k : Fin 8) (s : State) : Res := .next ((s.advance dt).seamDeadline k.val)

end Sys2Proof.Machine
end

