-- ==== Sys2Proof/Machine/Serving.lean ====
section
/-! DEFINITION. Serving sessions: enabling, sequences, pages and the decode step (R231 to R242). -/

namespace Sys2Proof.Machine

def Reset.serving : Serving := { seqs := [], free := [], freed := [], slots := [], step := none }

def State.serve (s : State) (k : Nat) : Serving := mgetD s.serving k Reset.serving

def State.putServe (s : State) (k : Nat) (x : Serving) : State := { s with serving := mput Reset.serving s.serving k x }

/-- The client of a session: the owner of its queue. -/
def State.svClient (s : State) (k : Nat) : Nat := s.get (Od.Q_OWNER (s.get (Od.SV_QUEUE k)))

/-! ## Enabling (R232) -/

/-- The descriptors of a session's network; none where one cannot be read. -/
def State.svDescs (s : State) (k : Nat) : State × Option (List (List Byte)) :=
  (List.range (s.get (Od.SV_NET_COUNT k))).foldl (fun (x : State × Option (List (List Byte))) i =>
    match x.2 with
    | none => x
    | some l =>
      match x.1.rdDesc (x.1.svClient k) (x.1.get (Od.SV_NET_VA k)) i with
      | (s, d, none) => (s, some (l ++ [d]))
      | (s, _, some _) => (s, none)) (s, some [])

/-- KV bytes per position of one ATTENTION layer (R232). -/
def attnBytes (d : List Byte) : Nat :=
  let l := layerOf d none
  if l.kind == 10 then 2 * l.tb.c * l.tb.w * ((elemOf l.bFmt).bits / 8) else 0

def kvBytesOf (ds : List (List Byte)) : Nat := ds.foldl (fun n d => n + attnBytes d) 0

/-- Byte offset of each slot within a position; empty where the slots do not cover 0 to L − 1 (R234, R236). -/
def slotOffsets (ds : List (List Byte)) : List Nat :=
  let at_ := (ds.filter (fun d => (layerOf d none).kind == 10)).map (fun d => ((layerOf d none).tb.h, attnBytes d))
  let n := at_.length
  if (List.range n).all (fun i => (at_.filter (fun e => e.1 == i)).length == 1) then
    (List.range n).map (fun i => (at_.filter (fun e => e.1 < i)).foldl (fun m e => m + e.2) 0)
  else []

/-- Row bytes of a tensor of a descriptor. -/
def rowSize (t : Tensor) (fmt : Nat) : Nat := ceilDiv (t.c * (elemOf fmt).bits) 8

/-- Bytes that a session's state takes at `SV_STATE_VA` (R232). -/
def State.svStateBytes (s : State) (k : Nat) : Nat := 4096 + 1024 * s.get (Od.SV_SEQ_PAGES k)

/-- `SV_STATE_VA` maps wholly, writable, into one SERVING partition that is large enough (R232). -/
def State.svStateOk (s : State) (k : Nat) : Bool :=
  let va := s.get (Od.SV_STATE_VA k)
  let n := s.svStateBytes k
  let parts : List (Option (Nat × Nat)) := (rangeFrom (va / 2 ^ 16) ((va + n - 1) / 2 ^ 16 + 1 - va / 2 ^ 16)).map (fun pg =>
    match (s.resolve (s.svClient k) (max va (pg * 2 ^ 16)) true).2 with
    | some (.mill a, _) => (partOfBank ((List.range 16).map s.activePart) (a / mib2)).map (fun e => (e.1, e.2.kind))
    | _ => none)
  parts.all (fun p => match p with
    | some e => e.2 == 5 && some e == parts.head?.join && n ≤ s.partBytes e.1
    | none => false)

/-- Every page of the pool is writable DRAM or Millpond (R232). -/
def State.svPoolOk (s : State) (k : Nat) : Bool :=
  1 ≤ s.get (Od.SV_POOL_PAGES k) &&
  (List.range (s.get (Od.SV_POOL_PAGES k))).all (fun i =>
    match (s.resolve (s.svClient k) (s.get (Od.SV_POOL_VA k) + 65536 * i) true).2 with
    | some (.dram _, _) => true
    | some (.mill _, _) => true
    | _ => false)

/-- The queue of a session may be bound (R232). -/
def State.svQueueOk (s : State) (k : Nat) : Bool :=
  let q := s.get (Od.SV_QUEUE k)
  16 ≤ q && q ≤ 63 && s.on (Od.Q_ENABLE q) && s.get (Od.Q_TAIL q) == s.get (Od.Q_DONE q) &&
    (List.range 8).all (fun i => i == k || !(s.on (Od.SV_ENABLE i) && s.get (Od.SV_QUEUE i) == q))

/-- The device keeps the state of a session's sequences at `SV_STATE_VA`, in a form that the spec does not give (R237). -/
def State.keepSvState (s : State) (k : Nat) : State :=
  (s.wr (s.svClient k) (s.get (Od.SV_STATE_VA k)) (s.freeBytes (s.svStateBytes k))).1.spend

/-- A write of SV_ENABLE (R232). -/
def State.wrSvEnable (s : State) (k v : Nat) : WRes :=
  if v == 0 then
    let q := s.get (Od.SV_QUEUE k)
    if s.get (Od.Q_TAIL q) != s.get (Od.Q_DONE q) then .no s Ab.BUSY
    else .ok ((s.sets [(Od.SV_ENABLE k, 0), (Od.SV_FREE_PAGES k, 0), (Od.SV_RUNNING k, 0), (Od.SV_PARKED k, 0)]).putServe
      k Reset.serving)
  else if !s.svQueueOk k || !s.svStateOk k || !s.svPoolOk k then .no s Ab.RANGE
  else match s.svDescs k with
    | (_, none) => .no s Ab.RANGE
    | (t, some ds) =>
      let kv := kvBytesOf ds
      if kv * s.get (Od.SV_PAGE_TOKENS k) > 65536 then .no s Ab.RANGE
      else
        let first := layerOf (ds.headD []) none
        let last := layerOf (ds.getLastD []) none
        let pages := s.get (Od.SV_POOL_PAGES k)
        .ok (((t.sets [(Od.SV_ENABLE k, 1), (Od.SV_KV_BYTES k, kv), (Od.SV_IN_BYTES k, rowSize first.ta first.aFmt),
            (Od.SV_OUT_BYTES k, rowSize last.tout last.outFmt), (Od.SV_FREE_PAGES k, pages), (Od.SV_STEPS k, 0),
            (Od.SV_RUNNING k, 0), (Od.SV_PARKED k, 0)]).putServe k
          { Reset.serving with free := List.range pages, slots := slotOffsets ds }).keepSvState k)

/-! ## The step (R238, R239) -/

def StepJob.op (a : StepJob) : Nat := slotOpcode a.slot

def StepJob.seq (a : StepJob) : Nat := fld a.slot 25 1

/-- A sequence takes the lowest free pages. -/
def StepSt.take (x : StepSt) (q n : Nat) : StepSt :=
  let pages := x.free.take n
  let sq := mgetD x.seqs q { st := .running, pages := [], n := 0, order := (0, 0) }
  { x with free := x.free.drop n, taken := x.taken ++ pages.map (fun p => (q, p)),
           seqs := mset x.seqs q { sq with pages := sq.pages ++ pages } }

/-- Parked sequences in join order. -/
def parkedOf (m : Map Seq) : List (Nat × Seq) :=
  let l := m.filter (fun e => e.2.st == .parked)
  l.mergeSort (fun a b => a.2.order.1 < b.2.order.1 || (a.2.order.1 == b.2.order.1 && a.2.order.2 ≤ b.2.order.2))

/-- Step 3: parked sequences resume, each with one page (R239). -/
def StepSt.resume (x : StepSt) : StepSt :=
  (parkedOf x.seqs).foldl (fun x e =>
    if x.free.isEmpty then x
    else
      let x := x.take e.1 1
      match mget x.seqs e.1 with
      | some sq => { x with seqs := mset x.seqs e.1 { sq with st := .running } }
      | none => x) x

/-- Step 2: one SV_LEAVE. -/
def StepSt.leave (x : StepSt) (q : Nat) : StepSt × Verdict :=
  match mget x.seqs q with
  | some _ => (x, .leave)
  | none => (x, .fault)

/-- Step 4: one SV_DECODE. -/
def StepSt.decode (x : StepSt) (tokens maxPages q : Nat) : StepSt × Verdict :=
  match mget x.seqs q with
  | none => (x, .fault)
  | some sq =>
    if sq.st == .parked then (x, .parked)
    else if sq.pages.length ≥ sq.n / tokens + 1 then ({ x with rows := x.rows + 1 }, .row)
    else if sq.pages.length ≥ maxPages then (x, .fault)
    else if x.free.isEmpty then
      ({ x with seqs := mset x.seqs q { sq with st := .parked }, parks := x.parks + 1 }, .parked)
    else ({ x.take q 1 with rows := x.rows + 1 }, .row)

/-- Step 5: one SV_JOIN of P rows. -/
def StepSt.join (x : StepSt) (tokens maxPages reserve maxRows q p : Nat) (order : Nat × Nat) : StepSt × Verdict :=
  if (mget x.seqs q).isSome then (x, .fault)
  else
    let need := ceilDiv p tokens
    if (parkedOf x.seqs).isEmpty && need + reserve ≤ x.free.length && need ≤ maxPages && x.rows + p ≤ maxRows then
      let x := { x with seqs := mset x.seqs q { st := .running, pages := [], n := 0, order := order } }
      ({ x.take q need with rows := x.rows + p }, .row)
    else (x, .deferred x.free.length)

/-- Decide the jobs of one opcode in submission order, with each job's place in the step. -/
def StepSt.phase (x : StepSt) (op : Nat) (f : StepSt → Nat → StepJob → StepSt × Verdict) (l : List StepJob) :
    StepSt × List StepJob :=
  l.zipIdx.foldl (fun (r : StepSt × List StepJob) e =>
    if e.1.op == op then
      let v := f r.1 e.2 e.1
      (v.1, r.2 ++ [{ e.1 with verdict := v.2 }])
    else (r.1, r.2 ++ [e.1])) (x, [])

/-- Take the jobs of the step from the queue in submission order (R238): `fuel` bounds them. All but the first, which stands
for the step on its quarter, ask for no unit. -/
def State.takeStep (s : State) (q : Nat) (u : SchedUnit) (acc : List StepJob) : Nat → State × List StepJob
  | 0 => (s, acc)
  | fuel + 1 =>
    match s.nextInLine q with
    | none => (s, acc)
    | some j =>
      if s.startBlocked j.client then (s, acc) else
      match s.checkLine j with
      | .ended s => s.takeStep q u acc fuel
      | .waits s => (s, acc)
      | .ready s j =>
        let a : StepJob := { job := j.id, slot := j.slot, verdict := .row }
        if acc.any (fun b => b.seq == a.seq) then (s, acc)
        else (s.startJob { j with blocked := !acc.isEmpty } u none).takeStep q u (acc ++ [a]) fuel

/-- Rows of a job: how many, and their first position. -/
def StepJob.rows (a : StepJob) (m : Map Seq) : Nat × Nat :=
  if a.op == 0x20 then (fld a.slot 28 4, 0)
  else (1, match mget m a.seq with
    | some x => x.n
    | none => 0)

/-- Row-carrying jobs in row order: decodes, then joins (R239 step 6). -/
def rowJobs (l : List StepJob) : List StepJob :=
  (l.filter (fun a => a.verdict == .row && a.op == 0x21)) ++ (l.filter (fun a => a.verdict == .row && a.op == 0x20))

/-- Pages and position of every row. -/
def seqRowsOf (l : List StepJob) (m : Map Seq) : List (List Nat × Nat) :=
  (rowJobs l).flatMap (fun a =>
    let r := a.rows m
    let pages := match mget m a.seq with
      | some x => x.pages
      | none => []
    (List.range r.1).map (fun i => (pages, r.2 + i)))

/-- The environment of a layer of a serving step. -/
def State.svEnv (s : State) (k n : Nat) (rows : List (List Nat × Nat)) (i : Nat) : LayerEnv :=
  { client := s.svClient k, dib := false, last := i + 1 == n, rows := some rows.length, seqRows := rows,
    poolVa := s.get (Od.SV_POOL_VA k), tokens := max 1 (s.get (Od.SV_PAGE_TOKENS k)), kvBytes := s.get (Od.SV_KV_BYTES k),
    slotOff := (s.serve k).slots }

/-- Copy n bytes within a client's memory. -/
def State.moveBytes (s : State) (cl src dst n : Nat) : MRes :=
  match s.rd cl src n with
  | (s, _, some f) => (s, some f)
  | (s, b, none) => s.wr cl dst b

/-- The decision of one job changes. -/
def setVerdict (l : List StepJob) (id : JobId) (v : Verdict) : List StepJob :=
  l.map (fun a => if a.job == id then { a with verdict := v } else a)

/-- Copy each row-carrying job's rows in row order; `move` gives source, destination and bytes at the job's first row. A job
whose own copy faults is lost to the step, alone (R119; log entry 54). -/
def State.copyRows (s : State) (cl : Nat) (l : List StepJob) (m : Map Seq) (skip : Bool)
    (move : StepJob → Nat → Nat → Nat × Nat × Nat) : State × List StepJob :=
  let r := (rowJobs l).foldl (fun (x : State × List StepJob × Nat) a =>
    let n := (a.rows m).1
    let v := move a x.2.2 n
    match x.1.moveBytes cl v.1 v.2.1 v.2.2 with
    | (s, some f) => (s, setVerdict x.2.1 a.job (.lost f), if skip then x.2.2 else x.2.2 + n)
    | (s, none) => (s, x.2.1, x.2.2 + n)) (s, l, 0)
  (r.1, r.2.1)

/-- Step 6, first part: the input rows go to the rows of the first layer's tensor A (R239). -/
def State.copyIn (s : State) (k : Nat) (l : List StepJob) (m : Map Seq) : State × List StepJob × NetEnd :=
  let cl := s.svClient k
  match s.rdDesc cl (s.get (Od.SV_NET_VA k)) 0 with
  | (s, _, some f) => (s, l, .mem 0 f)
  | (s, d, none) =>
    let inB := s.get (Od.SV_IN_BYTES k)
    let r := s.copyRows cl l m true (fun a i n => (fld a.slot 32 8, (layerOf d none).ta.va + i * inB, n * inB))
    (r.1, r.2, .ok)

/-- Step 6, last part: the last layer's output row of each job goes to its `OUT_VA`, the last prompt row for a join (R239). -/
def State.copyOut (s : State) (k : Nat) (l : List StepJob) (m : Map Seq) : State × List StepJob × NetEnd :=
  let cl := s.svClient k
  let n := s.get (Od.SV_NET_COUNT k)
  match s.rdDesc cl (s.get (Od.SV_NET_VA k)) (n - 1) with
  | (s, _, some f) => (s, l, .mem (n - 1) f)
  | (s, d, none) =>
    let outB := s.get (Od.SV_OUT_BYTES k)
    let r := s.copyRows cl l m false (fun a i n =>
      ((layerOf d none).tout.va + (i + n - 1) * outB, fld a.slot 40 8, outB))
    (r.1, r.2, .ok)

/-- Step 7 for one sequence. -/
def advanceSeq (m : Map Seq) (a : StepJob) : Map Seq :=
  match a.verdict, mget m a.seq with
  | .row, some x => mset m a.seq { x with n := if a.op == 0x20 then fld a.slot 28 4 else x.n + 1 }
  | _, _ => m

def Verdict.isLost : Verdict → Bool
  | .lost _ => true
  | _ => false

/-- Pages taken in the step return to F, and joins do not take effect (R240). -/
def StepSt.undo (x : StepSt) (joins : List StepJob) (pages : List (Nat × Nat)) : StepSt :=
  let gone := (joins.filter (fun a => a.op == 0x20)).map (·.seq)
  let seqs := x.seqs.map (fun e => (e.1, { e.2 with pages := e.2.pages.filter (fun p => !pages.contains (e.1, p)) }))
  { x with seqs := seqs.filter (fun e => !gone.contains e.1), free := (x.free ++ pages.map (·.2)).mergeSort (· ≤ ·) }

/-- The sequences after step 7: lost jobs leave theirs as they were, and so does a network that faults for all rows. -/
def StepRun.after (r : StepRun) (e : NetEnd) : StepSt :=
  let lost := r.jobs.filter (fun a => a.verdict.isLost)
  match e with
  | .ok =>
    let y := r.st.undo lost (r.st.taken.filter (fun t => lost.any (fun a => a.seq == t.1)))
    { y with seqs := r.jobs.foldl advanceSeq y.seqs }
  | _ => r.st.undo (r.jobs.filter (fun a => a.verdict.isLost || a.verdict == .row)) r.st.taken

/-- End one job of the step (R240, R241); one that a flush has aborted has ended (R356). -/
def State.endStepJob (s : State) (a : StepJob) (x : StepSt) (fl : Nat) (e : NetEnd) : State :=
  match s.job a.job with
  | none => s
  | some j =>
    if j.phase == .finished then s else
    let j := { j with done := 0, desc := [] }
    let ran := { j with flags := j.flags ||| fl }
    match a.verdict with
    | .fault => s.faultJob j 2 0 25 0
    | .lost f => s.faultMem ran f 0 0
    | .leave => s.finishJob j St.OK []
    | .deferred f => s.finishJob j St.DEFERRED (toLe 4 f)
    | .parked =>
      let rank := ((parkedOf x.seqs).map (·.1)).idxOf a.seq
      s.finishJob j St.PARKED (toLe 4 rank)
    | .row =>
      match e with
      | .bad i off => s.faultJob ran 2 (i + 1) off 0
      | .mem i f => s.faultMem ran f (i + 1) 0
      | _ =>
        let pos := match mget x.seqs a.seq with
          | some q => q.n - 1
          | none => 0
        s.finishJob ran St.OK (toLe 4 pos)

/-- The decisions of steps 1 to 5 over the jobs taken. -/
def State.decideStep (s : State) (k : Nat) (l : List StepJob) : StepSt × List StepJob :=
  let v := s.serve k
  let tokens := max 1 (s.get (Od.SV_PAGE_TOKENS k))
  let maxP := s.get (Od.SV_SEQ_PAGES k)
  let x : StepSt := { free := (v.free ++ v.freed).mergeSort (· ≤ ·), seqs := v.seqs, taken := [], parks := 0, rows := 0 }
  let (x, l) := x.phase 0x22 (fun x _ a => x.leave a.seq) l
  let x := x.resume
  let (x, l) := x.phase 0x21 (fun x _ a => x.decode tokens maxP a.seq) l
  x.phase 0x20 (fun x i a => x.join tokens maxP (s.get (Od.SV_RESERVE k)) (s.get (Od.SV_MAX_ROWS k)) a.seq
    (fld a.slot 28 4) (s.get (Od.SV_STEPS k), i)) l

/-- Step 7, and the end of the step: its jobs complete in submission order (R239 to R241). -/
def State.endStep (s : State) (k : Nat) (r : StepRun) (e : NetEnd) : State :=
  let l := r.jobs
  let x := r.after e
  let s := l.foldl (fun s a => s.endStepJob a x r.flags e) s
  let leaving := (l.filter (fun a => a.verdict == .leave)).map (·.seq)
  let freed := (x.seqs.filter (fun e => leaving.contains e.1)).flatMap (fun e => e.2.pages)
  let seqs := x.seqs.filter (fun e => !leaving.contains e.1)
  let s := s.putServe k { s.serve k with seqs := seqs, free := x.free, freed := freed, step := none }
  let s := s.sets
    [(Od.SV_FREE_PAGES k, x.free.length), (Od.SV_RUNNING k, (seqs.filter (fun e => e.2.st == .running)).length),
     (Od.SV_PARKED k, (seqs.filter (fun e => e.2.st == .parked)).length),
     (Od.SV_STEPS k, min (2 ^ 48 - 1) (s.get (Od.SV_STEPS k) + 1))]
  ((s.incBy (Od.SV_DEFERRED k) (l.filter (fun a => match a.verdict with
    | .deferred _ => true
    | _ => false)).length).incBy (Od.SV_PARKS k) x.parks).keepSvState k

/-- A step begins: it takes its jobs and decides them; they ask for the quarter of the step (R183, R238, R239). -/
def State.beginStep (s : State) (k : Nat) : State :=
  let q := s.get (Od.SV_QUEUE k)
  match s.nextInLine q, s.place (s.get (Od.SV_QUARTER k)) with
  | some j, some u =>
    if s.outranked u (s.prio q) j.id || s.startAhead u q then s else
    let (s, l) := s.takeStep q u [] (s.jobsOf q).length
    if l.isEmpty then s else
    let (x, l) := s.decideStep k l
    s.putServe k { s.serve k with step := some { jobs := l, st := x, copied := false, flags := 0 } }
  | _, _ => s

/-- A run of the step's network on its quarter, up to `cut` more layer tiles, or to its end (R239 step 6, R240). -/
def State.runStep (s : State) (k : Nat) (r : StepRun) (j : Job) (cut : Option Nat) : State :=
  let x := if r.copied || r.st.rows == 0 then (s, r.jobs, NetEnd.ok) else s.copyIn k r.jobs r.st.seqs
  let s := x.1
  let r := { r with jobs := x.2.1, copied := true }
  match x.2.2 with
  | .ok =>
    let rows := seqRowsOf r.jobs r.st.seqs
    if rows.isEmpty then s.endStep k r .ok else
    let n := s.get (Od.SV_NET_COUNT k)
    let net := s.runNetwork (s.get (Od.SV_NET_VA k)) n (s.svEnv k n rows) j.netPos cut
    let r := { r with flags := r.flags ||| net.2.1 }
    match net.2.2 with
    | .stop p => (net.1.putServe k { net.1.serve k with step := some r }).standAtLayer j.id p
    | .ok =>
      let y := net.1.copyOut k r.jobs r.st.seqs
      y.1.endStep k { r with jobs := y.2.1 } y.2.2
    | e => net.1.endStep k r e
  | e => s.endStep k r e

/-- The step in progress of a session goes on, where its first job may use the quarter (R184, R240). -/
def State.goOnStep (s : State) (k : Nat) (cut : Option Nat) : State :=
  match s.stepRun k with
  | none => s
  | some r =>
    match r.jobs.head?.bind (fun a => s.job a.job) with
    | none => s
    | some j => if s.mayIssue j then (s.begin_ j).runStep k r j cut else s

/-- A session begins a step, or its step in progress goes on (R238, R240). -/
def State.servingStep (s : State) (k : Nat) (cut : Option Nat) : State :=
  if !s.alive || !s.on (Od.SV_ENABLE k) then s
  else (if (s.stepRun k).isSome then s else s.beginStep k).goOnStep k cut

/-- `SERVING_STEP` (R239). -/
def execServingStep (dt : Nat) (k : Fin 8) (u : Course) (s : State) : Res :=
  .next (((s.advance dt).upsets u.upsets).servingStep k.val u.cut)

end Sys2Proof.Machine
end

