-- ==== Sys2Proof/Machine/Vision.lean ====
section
/-! DEFINITION. The Vision Engine: pyramids, descriptors, detection, tracking, matching, and the sequence of units (R272 to
R284). -/

namespace Sys2Proof.Machine

/-! ## Images and pyramids (R272 to R274) -/

/-- A grey image: width, height and pixels row by row. -/
structure Grey where
  w : Nat
  h : Nat
  px : List Nat
  deriving DecidableEq, Repr

/-- A pixel, or the nearest edge pixel outside. -/
def Grey.at_ (g : Grey) (c r : Int) : Nat := g.px.getD (clampIdx r g.h * g.w + clampIdx c g.w) 0

def Grey.inside (g : Grey) (c r : Int) : Bool := 0 ≤ c && c < g.w && 0 ≤ r && r < g.h

/-- Luma of a pixel (R272). -/
def lumaOf (fmt raw : Nat) : Nat :=
  if fmt == 1 then raw
  else (77 * bitsOf raw 0 8 + 150 * bitsOf raw 8 8 + 29 * bitsOf raw 16 8 + 128) / 256

/-- Read the image of a stream as luma. -/
def State.rdGrey (s : State) (cl v va pitch : Nat) : State × Grey × Option MemFault :=
  let w := s.get (Od.VS_WIDTH v)
  let h := s.get (Od.VS_HEIGHT v)
  let fmt := s.get (Od.VS_FMT v)
  let t : Target := { va := va, pitch := pitch, fmt := fmt, loadOp := 1, store := false, clear := [] }
  let n := t.bytes
  let r := (t.pieces ⟨0, 0, w, h⟩).foldl (fun (a : State × List Nat × Option MemFault) q =>
    if a.2.2.isSome then a else
    match a.1.rd cl (t.pixelVa q.1 q.2.1) (q.2.2 * n) with
    | (s, _, some f) => (s, a.2.1, some f)
    | (s, b, none) => (s, a.2.1 ++ (List.range q.2.2).map (fun i => lumaOf fmt (fld b (n * i) n)), none)) (s, [], none)
  (r.1, ⟨w, h, r.2.1⟩, r.2.2)

def half (n : Nat) : Nat := (n + 1) / 2

/-- The next level (R274). -/
def Grey.next (g : Grey) : Grey :=
  let w := half g.w
  let h := half g.h
  ⟨w, h, (List.range h).flatMap (fun (r : Nat) => (List.range w).map (fun (c : Nat) =>
    let y : Int := 2 * (r : Int)
    let x : Int := 2 * (c : Int)
    rne (g.at_ x y + g.at_ (x + 1) y + g.at_ x (y + 1) + g.at_ (x + 1) (y + 1)) 4))⟩

/-- Levels 0 to 3. -/
def pyramid (g : Grey) : List Grey :=
  let a := g.next
  let b := a.next
  [g, a, b, b.next]

def levelSizes (w h : Nat) : List (Nat × Nat) :=
  [(w, h), (half w, half h), (half (half w), half (half h)), (half (half (half w)), half (half (half h)))]

/-- Bytes of one pyramid slot. -/
def pyramidBytes (w h : Nat) : Nat := (levelSizes w h).foldl (fun n e => n + e.1 * e.2) 0

/-- Address of a pyramid slot. -/
def State.pyramidVa (s : State) (v slot : Nat) : Nat :=
  s.get (Od.VS_PYR_VA v) + slot * pyramidBytes (s.get (Od.VS_WIDTH v)) (s.get (Od.VS_HEIGHT v))

def State.wrPyramid (s : State) (cl v slot : Nat) (l : List Grey) : MRes :=
  s.wr cl (s.pyramidVa v slot) (l.flatMap (fun g => g.px.map (BitVec.ofNat 8)))

def State.rdPyramid (s : State) (cl v slot : Nat) : State × List Grey × Option MemFault :=
  let w := s.get (Od.VS_WIDTH v)
  let h := s.get (Od.VS_HEIGHT v)
  let r := s.rd cl (s.pyramidVa v slot) (pyramidBytes w h)
  let ls := (levelSizes w h).foldl (fun (a : List Grey × List Byte) e =>
    (a.1 ++ [⟨e.1, e.2, (a.2.take (e.1 * e.2)).map (·.toNat)⟩], a.2.drop (e.1 * e.2))) ([], r.2.1)
  (r.1, ls.1, r.2.2)

/-! ## Descriptors (R278) -/

/-- One step of the shift register. -/
def lfsrStep (s : Nat) : Nat :=
  let b := (s / 1 + s / 4 + s / 8 + s / 32) % 2
  s / 2 + 2 ^ 15 * b

/-- `n` draws from a register, with `fuel` steps left. -/
def lfsrDraws : Nat → Nat → Nat → List Int
  | 0, _, _ => []
  | _ + 1, _, 0 => []
  | fuel + 1, s, n + 1 =>
    let t := lfsrStep s
    if t % 32 == 31 then lfsrDraws fuel t (n + 1) else ((t % 32 : Nat) - 15 : Int) :: lfsrDraws fuel t n

/-- The 256 pixel pairs. -/
def descPairs : List Int → List (Int × Int × Int × Int)
  | a :: b :: c :: d :: r => (a, b, c, d) :: descPairs r
  | _ => []

def pairTable : List (Int × Int × Int × Int) := descPairs (lfsrDraws 4096 0xACE1 1024)

/-- The descriptor of a pixel of a level. -/
def Grey.desc (g : Grey) (c r : Int) : List Bool :=
  pairTable.map (fun p => decide (g.at_ (c + p.1) (r + p.2.1) < g.at_ (c + p.2.2.1) (r + p.2.2.2)))

def hamming (a b : List Bool) : Nat := ((a.zip b).filter (fun e => e.1 != e.2)).length

def descBytes (l : List Bool) : List Byte :=
  (List.range 32).map (fun i => BitVec.ofNat 8 ((List.range 8).foldl (fun n k =>
    if l.getD (8 * i + k) false then n + 2 ^ k else n) 0))

def bitsOfBytes (l : List Byte) : List Bool := l.flatMap (fun b => (List.range 8).map (fun k => bitOf b.toNat k))

/-! ## Feature records (R277) -/

structure Feature where
  x : Int
  y : Int
  status : Nat
  score : Nat
  mx : Int
  my : Int
  desc : List Byte
  deriving DecidableEq, Repr

/-- A record read; statuses 4 to 15 are EMPTY. -/
def featureOf (b : List Byte) : Feature :=
  let a := fld b 0 8
  let m := fld b 8 8
  let st := bitsOf a 36 4
  { x := signed 18 a, y := signed 18 (a / 2 ^ 18), status := if st < 4 then st else 3, score := bitsOf a 48 16,
    mx := signed 18 m, my := signed 18 (m / 2 ^ 18), desc := slice b 16 32 }

/-- A record written, with 0 in its reserved fields. -/
def Feature.bytes (f : Feature) : List Byte :=
  toLe 8 (unsigned 18 f.x + unsigned 18 f.y * 2 ^ 18 + f.status * 2 ^ 36 + f.score % 2 ^ 16 * 2 ^ 48) ++
    toLe 8 (unsigned 18 f.mx + unsigned 18 f.my * 2 ^ 18) ++ padTo 32 f.desc

def emptyFeature : Feature := { x := 0, y := 0, status := 3, score := 0, mx := 0, my := 0, desc := [] }

/-- A pixel's centre as an S12.6 position (R273). -/
def centre (c : Int) (n : Nat) : Int := 64 * c + 32 - 32 * n

/-- The index of a position at a pyramid level (R273). -/
def levelIndex (x : Int) (n lvl : Nat) : Int := (x + 32 * n) / (64 * 2 ^ lvl)

/-! ## Detection (R279) -/

/-- The sum of absolute differences of two 7 × 7 windows. -/
def Grey.sad (g : Grey) (c r dc dr : Int) : Nat :=
  (List.range 49).foldl (fun n i =>
    let x := c + ((i % 7 : Nat) : Int) - 3
    let y := r + ((i / 7 : Nat) : Int) - 3
    n + ((g.at_ x y : Int) - g.at_ (x + dc) (y + dr)).natAbs) 0

def shifts : List (Int × Int) := [(-1, -1), (0, -1), (1, -1), (-1, 0), (1, 0), (-1, 1), (0, 1), (1, 1)]

def Grey.score (g : Grey) (c r : Int) : Nat :=
  shifts.foldl (fun n d => min n (g.sad c r d.1 d.2)) (2 ^ 16)

/-- The candidate of a cell: score, column and row; the first of the highest score in row order. -/
def Grey.cellBest (g : Grey) (cell cx cy : Nat) : Option (Nat × Nat × Nat) :=
  (pixelsIn (cell * cx) (cell * cy) (min g.w (cell * cx + cell)) (min g.h (cell * cy + cell))).foldl
    (fun b q =>
      if q.1 < 18 || q.2 < 18 || g.w < q.1 + 19 || g.h < q.2 + 19 then b
      else
        let sc := g.score q.1 q.2
        match b with
        | some (m, _, _) => if m < sc then some (sc, q.1, q.2) else b
        | none => some (sc, q.1, q.2)) none

/-- Insert by descending score; equal scores stay in order. -/
def insertScore (x : Nat × Nat × Nat) : List (Nat × Nat × Nat) → List (Nat × Nat × Nat)
  | [] => [x]
  | y :: r => if y.1 < x.1 then x :: y :: r else y :: insertScore x r

def Grey.detect (g : Grey) (cell minScore count : Nat) : List Feature :=
  let cells := pixelsIn 0 0 (ceilDiv g.w cell) (ceilDiv g.h cell)
  let cands := (cells.filterMap (fun q => g.cellBest cell q.1 q.2)).filter (fun e => minScore ≤ e.1)
  let best := (cands.foldl (fun l e => insertScore e l) []).take count
  best.map (fun e => { x := centre e.2.1 g.w, y := centre e.2.2 g.h, status := 0, score := e.1, mx := 0, my := 0,
                       desc := descBytes (g.desc e.2.1 e.2.2) })

/-! ## Tracking (R281) -/

/-- The window's offsets: columns ±32, rows ±24. -/
def windowOffsets : List (Int × Int) :=
  (List.range 49).flatMap (fun (r : Nat) => (List.range 65).map (fun (c : Nat) => ((c : Int) - 32, (r : Int) - 24)))

/-- Order of two candidates: distance, |dx| + |dy|, row, column. -/
def better (a b : Nat × Int × Int) : Bool :=
  let da := a.2.1.natAbs + a.2.2.natAbs
  let db := b.2.1.natAbs + b.2.2.natAbs
  a.1 < b.1 || (a.1 == b.1 && (da < db || (da == db && (a.2.2 < b.2.2 || (a.2.2 == b.2.2 && a.2.1 < b.2.1)))))

/-- The best candidate of a window: distance and offset from its centre. -/
def Grey.best (g : Grey) (ref : List Bool) (c r : Int) : Option (Nat × Int × Int) :=
  windowOffsets.foldl (fun b o =>
    if !g.inside (c + o.1) (r + o.2) then b else
    let k := (hamming (g.desc (c + o.1) (r + o.2)) ref, o.1, o.2)
    match b with
    | some e => if better k e then some k else b
    | none => some k) none

/-- Sub-pixel offset in 1/64 from the distances either side; none where a neighbour is missing. -/
def subPixel (d0 : Nat) (dm dp : Option Nat) : Int :=
  match dm, dp with
  | some m, some p =>
    let d : Int := (m : Int) - 2 * d0 + p
    if d ≤ 0 then 0
    else
      let v := rneInt (32 * ((m : Int) - p)) d.toNat
      max (-32) (min 32 v)
  | _, _ => 0

/-- The distance at an offset of the level-0 window, where it lies in the window and the image. -/
def Grey.distAt (g : Grey) (ref : List Bool) (c r ox oy : Int) : Option Nat :=
  if ox.natAbs ≤ 32 && oy.natAbs ≤ 24 && g.inside (c + ox) (r + oy)
  then some (hamming (g.desc (c + ox) (r + oy)) ref) else none

/-- Track one VALID record from the reference pyramid into the new one. -/
def track (old new : List Grey) (maxDist : Nat) (f : Feature) : Feature :=
  match new, old with
  | [n0, n1, n2, n3], [o0, o1, o2, o3] =>
    let c0 := levelIndex (f.x + f.mx) n0.w 0
    let r0 := levelIndex (f.y + f.my) n0.h 0
    if !n0.inside c0 r0 then { f with status := 2, mx := 0, my := 0, score := 0 }
    else
      let ref := fun (g : Grey) (lvl : Nat) => g.desc (levelIndex f.x n0.w lvl) (levelIndex f.y n0.h lvl)
      let down := fun (n o : Grey) (lvl : Nat) (c r : Int) =>
        match n.best (ref o lvl) c r with
        | some e => (2 * (c + e.2.1), 2 * (r + e.2.2))
        | none => (2 * c, 2 * r)
      let a := down n3 o3 3 (levelIndex (f.x + f.mx) n0.w 3) (levelIndex (f.y + f.my) n0.h 3)
      let b := down n2 o2 2 a.1 a.2
      let q := down n1 o1 1 b.1 b.2
      let rf := ref o0 0
      match n0.best rf q.1 q.2 with
      | none => { f with status := 1, mx := 0, my := 0, score := 256 }
      | some (d0, ox, oy) =>
        if maxDist < d0 then { f with status := 1, mx := 0, my := 0, score := d0 }
        else
          let d := fun i k => n0.distAt rf q.1 q.2 (ox + i) (oy + k)
          let x := centre (q.1 + ox) n0.w + subPixel d0 (d (-1) 0) (d 1 0)
          let y := centre (q.2 + oy) n0.h + subPixel d0 (d 0 (-1)) (d 0 1)
          { x := x, y := y, status := 0, score := d0, mx := x - f.x, my := y - f.y,
            desc := descBytes (n0.desc (q.1 + ox) (q.2 + oy)) }
  | _, _ => f

/-! ## Matching (R282) -/

/-- Least distance and its index among candidates, lowest index first. -/
def nearest (a : Feature) (l : List (Nat × Feature)) : Option (Nat × Nat) :=
  l.foldl (fun b e =>
    let d := hamming (bitsOfBytes a.desc) (bitsOfBytes e.2.desc)
    match b with
    | some (m, _) => if d < m then some (d, e.1) else b
    | none => some (d, e.1)) none

/-- The word of one record of set A. -/
def matchWord (gx gy ratio matchMax : Nat) (bs : List (Nat × Feature)) (a : Feature) : Nat :=
  if a.status != 0 then 0xFFFF else
  let near := fun (u v : Int) (g : Nat) => g == 0 || (u - v).natAbs ≤ 64 * g
  let cs := bs.filter (fun e => e.2.status == 0 && near e.2.x a.x gx && near e.2.y a.y gy)
  match nearest a cs with
  | none => 0xFFFF
  | some (d1, i) =>
    let ok := d1 ≤ matchMax && (ratio == 0 || (match nearest a (cs.filter (fun e => e.1 != i)) with
      | some (d2, _) => 16 * d1 ≤ ratio * d2
      | none => true))
    (if ok then i else 0xFFFF) + d1 * 2 ^ 16

/-! ## Units (R283) -/

def VisionUnit.stream : VisionUnit → Option Nat
  | .build v => some v
  | .level v _ => some v
  | .detect v => some v
  | .match_ => none

def streamsOf (c : List Byte) : List Nat := (List.range 16).filter (fun v => bitOf (fld c 24 2) v)

/-- The units of a command: VX_TRACK in ascending streams, with the build alone under `BUILD_ONLY`. -/
def unitsOf (c : List Byte) : List VisionUnit :=
  if slotOpcode c == 0x10 then (streamsOf c).map .detect
  else if slotOpcode c == 0x11 then (streamsOf c).flatMap (fun v =>
    if bitOf (fld c 26 1) 0 then [.build v] else [.build v, .level v 3, .level v 2, .level v 1, .level v 0])
  else [.match_]

/-- Works whose jobs still run. -/
def State.visionWorks (s : State) : List VisionWork :=
  s.vision.works.filter (fun w => s.qs.jobs.any (fun j => j.id == w.job && j.phase == .started))

/-- The job that holds a vision stream. -/
def State.streamHolder (s : State) (v : Nat) : Option JobId :=
  (mget s.vision.holds v).bind (fun id => if s.visionWorks.any (fun w => w.job == id) then some id else none)

/-- The stream of a unit is free for its job. -/
def State.unitFree (s : State) (id : JobId) (u : VisionUnit) : Bool :=
  match u.stream with
  | none => true
  | some v => match s.streamHolder v with
    | some h => h == id
    | none => true

/-- The unit of a work that can run next: of the stream it holds, where it holds one; else the first whose stream is free, with
no earlier unit of that stream to do (R283; log entry 38). -/
def State.readyUnit (s : State) (w : VisionWork) : Option VisionUnit :=
  let held := w.units.find? (fun u => u.stream.any (fun v => s.streamHolder v == some w.job))
  held.or (w.units.find? (fun u => s.unitFree w.job u &&
    ((w.units.takeWhile (· != u)).all (fun e => e.stream != u.stream))))

/-- Choose the next unit: of the job of the highest level that has one, by turn (R179, R182, R283). -/
def State.nextUnit (s : State) : State :=
  let s := { s with vision := { s.vision with works := s.visionWorks, current := none } }
  let cands := s.vision.works.filterMap (fun w => match s.readyUnit w, s.job w.job with
    | some u, some j => if s.domOn 8 then some (j, u) else none
    | _, _ => none)
  let pick := cands.foldl (fun (b : Option (Job × VisionUnit)) k => match b with
    | none => some k
    | some o =>
      let lo := s.level o.1
      let lk := s.level k.1
      if lo < lk || (lo == lk && s.turn .vision lk k.1.id.q.val < s.turn .vision lo o.1.id.q.val) then some k else b) none
  match pick with
  | none => s
  | some (j, u) =>
    { s.noteServed .vision j with
      vision := { s.vision with
        current := some (j.id, u),
        holds := match u.stream with
          | some v => mset s.vision.holds v j.id
          | none => s.vision.holds } }

/-! ## Commands and their checks (R275, R276, R296) -/

/-- First offending field of a vision command's payload. -/
def visionBad (c : List Byte) : Option Nat :=
  let op := slotOpcode c
  if op == 0x10 then
    if fld c 32 8 % 32 != 0 then some 32
    else if !(fld c 40 1 == 8 || fld c 40 1 == 16 || fld c 40 1 == 32) then some 40
    else reservedAt c [(26, 2), (41, 1), (44, 20)]
  else if op == 0x11 then
    if fld c 26 1 > 1 then some 26
    else if fld c 32 8 % 32 != 0 then some 32
    else reservedAt c [(27, 1), (40, 24)]
  else
    if fld c 40 2 == 0 || fld c 40 2 > 4096 then some 40
    else if fld c 42 2 == 0 || fld c 42 2 > 4096 then some 42
    else if fld c 57 2 > 256 then some 57
    else reservedAt c [(59, 5)]

/-- First offending field of a stream record; its reserved bytes are ignored (R6). -/
def recordBad (op : Nat) (r : List Byte) : Option Nat :=
  if fld r 0 8 % 256 != 0 then some 0
  else if fld r 10 2 == 0 || fld r 10 2 > 4096 then some 10
  else if op == 0x10 && !zeros r 16 8 then some 16
  else none

/-- Read the stream records of a command: the records, or the fault of the first that breaks a rule. -/
def State.rdRecords (s : State) (cl op va : Nat) (l : List Nat) :
    State × Map (List Byte) × Option (Nat × Nat) × Option MemFault :=
  l.foldl (fun (a : State × Map (List Byte) × Option (Nat × Nat) × Option MemFault) v =>
    if a.2.2.1.isSome || a.2.2.2.isSome then a else
    match a.1.rd cl (va + 32 * v) 32 with
    | (s, _, some f) => (s, a.2.1, none, some f)
    | (s, r, none) => (s, mset a.2.1 v r, (recordBad op r).map (fun o => (v + 1, o)), none)) (s, [], none, none)

/-- A vision command is taken: checked, and divided into units (R283). -/
def State.visionCmd (s : State) (j : Job) (c : List Byte) : State :=
  let op := slotOpcode c
  let sel := selectsStreams j.id.q.val c
  let j := { j with poisons := if sel then s.streamFlags j.client c else [] }
  let s := s.putJob j
  let mine := fun v => s.get (Od.VS_OWNER v) == 0xFF || s.get (Od.VS_OWNER v) == j.client
  match visionBad c with
  | some off => s.faultCmd j.id 2 0 off 0
  | none =>
    -- the slot's own flags were checked with R153
    if sel && j.inList && !s.streamFlagsOk j.client c then s.faultCmd j.id 3 0 24 0
    else if sel && (streamsOf c).any (fun v => !mine v) then s.faultCmd j.id 2 0 24 0
    else match (if sel then s.rdRecords j.client op (fld c 32 8) (streamsOf c) else (s, [], none, none)) with
      | (s, _, some (st, off), _) => s.faultCmd j.id 2 st off 0
      | (s, _, none, some f) => s.faultCmdMem j.id f 0 0
      | (s, recs, none, none) =>
        if (unitsOf c).isEmpty then s.endCmd j.id St.OK [] 0 else
        let w : VisionWork := { job := j.id, cmd := c, recs := recs, units := unitsOf c }
        let s := s.putJob { j with blocked := true }
        let s := { s with vision := { s.vision with works := s.visionWorks ++ [w] } }
        if s.vision.current.isNone then s.nextUnit else s

/-! ## What a unit does -/

/-- A stream's output is complete: the job no longer owes its flag, the stream is released and the flag is set (R284). -/
def State.streamDone (s : State) (id : JobId) (c : List Byte) (v : Nat) : State :=
  let s := { s with vision := { s.vision with holds := mdel s.vision.holds v } }
  let k := s.get (Od.VS_FLAG v)
  let s := match s.job id with
    | some j => s.putJob { j with poisons := j.poisons.erase (v, fld c 28 4) }
    | none => s
  if k == 0xFFFF then s else s.setFlag false k (fld c 28 4)

/-- Read feature records. -/
def State.rdFeatures (s : State) (cl va n : Nat) : State × List Feature × Option MemFault :=
  let r := s.rd cl va (48 * n)
  (r.1, (List.range n).map (fun i => featureOf (slice r.2.1 (48 * i) 48)), r.2.2)

/-- The pyramid of a stream's image, built into the slot other than the reference (R280 step 1). -/
def State.buildUnit (s : State) (cl v : Nat) (r : List Byte) : MRes :=
  match s.rdGrey cl v (fld r 0 8) (fld r 8 2) with
  | (s, _, some f) => (s, some f)
  | (s, g, none) => s.wrPyramid cl v (1 - s.get (Od.VS_REF_SLOT v)) (pyramid g)

/-- Steps 2 to 4 of R280. -/
def State.trackUnit (s : State) (cl v : Nat) (r : List Byte) : MRes :=
  let n := fld r 10 2
  match s.rdFeatures cl (fld r 16 8) n with
  | (s, _, some f) => (s, some f)
  | (s, fs, none) =>
    let put := fun (s : State) (l : List Feature) =>
      match s.wr cl (fld r 24 8) (l.flatMap Feature.bytes) with
      | (s, some f) => (s, some f)
      | (s, none) =>
        ((s.incBy Od.VX_TRACKED (l.filter (fun e => e.status == 0)).length).incBy Od.VX_LOST
          (l.filter (fun e => e.status == 1 || e.status == 2)).length, none)
    if !s.on (Od.VS_REF_VALID v) then
      put s (fs.map (fun f => if f.status == 0 then { f with status := 1, mx := 0, my := 0 } else f))
    else
      let slot := s.get (Od.VS_REF_SLOT v)
      match s.rdPyramid cl v slot with
      | (s, _, some f) => (s, some f)
      | (s, old, none) =>
        match s.rdPyramid cl v (1 - slot) with
        | (s, _, some f) => (s, some f)
        | (s, new, none) =>
          put s (fs.map (fun f => if f.status == 0 then track old new (s.get (Od.VS_MAX_DIST v)) f else f))

/-- Step 5 of R280. -/
def State.trackEnd (s : State) (id : JobId) (c : List Byte) (v : Nat) : State :=
  let s := s.sets [(Od.VS_REF_SLOT v, 1 - s.get (Od.VS_REF_SLOT v)), (Od.VS_REF_VALID v, 1)]
  s.streamDone id c v

def State.detectUnit (s : State) (cl v : Nat) (c r : List Byte) : MRes :=
  match s.rdGrey cl v (fld r 0 8) (fld r 8 2) with
  | (s, _, some f) => (s, some f)
  | (s, g, none) =>
    let n := fld r 10 2
    let l := g.detect (fld c 40 1) (fld c 42 2) n
    s.wr cl (fld r 24 8) ((l ++ List.replicate (n - l.length) emptyFeature).flatMap Feature.bytes)

def State.matchUnit (s : State) (cl : Nat) (c : List Byte) : MRes :=
  match s.rdFeatures cl (fld c 24 8) (fld c 40 2) with
  | (s, _, some f) => (s, some f)
  | (s, as, none) =>
    match s.rdFeatures cl (fld c 32 8) (fld c 42 2) with
    | (s, _, some f) => (s, some f)
    | (s, bs, none) =>
      let ib := bs.mapIdx (fun i b => (i, b))
      s.wr cl (fld c 44 8) (as.flatMap (fun a =>
        toLe 4 (matchWord (fld c 52 2) (fld c 54 2) (fld c 56 1) (fld c 57 2) ib a)))

/-- What a unit writes, and the fault that stops its job. Levels 3 to 1 only carry candidates on to level 0. -/
def State.unitEffect (s : State) (w : VisionWork) (cl : Nat) (u : VisionUnit) : MRes :=
  let r := fun v => mgetD w.recs v []
  match u with
  | .build v =>
    match s.buildUnit cl v (r v) with
    | (s, some f) => (s, some f)
    | (s, none) => (if bitOf (fld w.cmd 26 1) 0 then s.trackEnd w.job w.cmd v else s, none)
  | .level v lvl =>
    if lvl != 0 then (s, none) else
    match s.trackUnit cl v (r v) with
    | (s, some f) => (s, some f)
    | (s, none) => (s.trackEnd w.job w.cmd v, none)
  | .detect v =>
    match s.detectUnit cl v w.cmd (r v) with
    | (s, some f) => (s, some f)
    | (s, none) => (s.streamDone w.job w.cmd v, none)
  | .match_ => s.matchUnit cl w.cmd

/-- The unit in progress ends: its effects, then the next unit of all started jobs. -/
def State.unitEnd (s : State) : State :=
  let s := s.atPoint .vision
  match s.vision.current with
  | none => s.nextUnit
  | some (id, u) =>
    match s.visionWorks.find? (fun w => w.job == id), s.job id with
    | some w, some j =>
      let rest := s.visionWorks.filter (fun o => o.job != id)
      match s.unitEffect w j.client u with
      | (s, some f) =>
        ((s.faultCmdMem id f 0 0)).nextUnit
      | (s, none) =>
        let s := s.set Od.VX_UNITS (min (2 ^ 48 - 1) (s.get Od.VX_UNITS + 1))
        let left := w.units.erase u
        if left.isEmpty then
          let s := { s with vision := { s.vision with works := rest } }
          (s.endCmd id St.OK [] 0).nextUnit
        else
          let s := { s with vision := { s.vision with
            works := s.vision.works.map (fun (o : VisionWork) => if o.job == id then { o with units := left } else o) } }
          s.nextUnit
    | _, _ => s.nextUnit

/-- A stream is held, so that its geometry cannot be written (R296). -/
def State.streamHeld (s : State) (v : Nat) : Bool := (s.streamHolder v).isSome

/-! ## Commands -/

/-- `VX_DETECT` (R275, R279). -/
def execVxDetect (dt : Nat) (j : JobId) (s : State) : Res := .next ((s.advance dt).runCmd j 2 0x10 State.visionCmd)

/-- `VX_TRACK` (R275, R280). -/
def execVxTrack (dt : Nat) (j : JobId) (s : State) : Res := .next ((s.advance dt).runCmd j 2 0x11 State.visionCmd)

/-- `VX_MATCH` (R275, R282). -/
def execVxMatch (dt : Nat) (j : JobId) (s : State) : Res := .next ((s.advance dt).runCmd j 2 0x12 State.visionCmd)

/-- `VISION_UNIT_END` (R283). -/
def execVisionUnitEnd (dt : Nat) (u : List Upset) (s : State) : Res := .next ((s.advance dt).upsets u).unitEnd

end Sys2Proof.Machine
end

