-- ==== Sys2Proof/Machine/Adjust.lean ====
section
/-! DEFINITION. The arithmetic of the Least-Squares Solver: sums and products in orders left open (log entry 9), Cholesky
factors and their ill-posed pivots, rotations, and one iteration of bundle adjustment (R288 to R292). -/

namespace Sys2Proof.Machine

/-! ## Steps in open order -/

/-- A list of FP32 results, and the flags of all. -/
abbrev Flagged := List Nat × Nat

def gather (l : List NumR) : Flagged := (l.map (·.1), l.foldl (fun f r => f ||| r.2) 0)

def f32Neg (a : Nat) : Nat := fmtF32.sign (!bitOf a 31) (a % 2 ^ 31)

/-- Canonical quiet NaN of F32 (R196). -/
def f32Nan : Nat := fmtF32.nanBits

/-- A value of an update or a structure as it enters the arithmetic: a NaN is the canonical one, which raises nothing
(R292). -/
def f32Quiet (a : Nat) : Nat := if (fmtF32.decode a).isNan then f32Nan else a

/-- One step of a product of factors and divisors. -/
def joinFactors (a b : Bool × NumR) : Bool × NumR :=
  let r := if a.1 == b.1 then f32Mul false a.2.1 b.2.1
    else if a.1 then f32Div false b.2.1 a.2.1 else f32Div false a.2.1 b.2.1
  (a.1 && b.1, (r.1, r.2 ||| a.2.2 ||| b.2.2))

/-- Join two factors at a time, in an order left open, until one is left. -/
def joinProduct (site : Nat) : Nat → List (Bool × NumR) → List (Bool × NumR)
  | 0, l => l
  | _ + 1, [] => []
  | _ + 1, [a] => [a]
  | _ + 1, [a, b] => [joinFactors a b]
  | fuel + 1, l =>
    match pick l (Config.sumOrder site (2 * fuel)) with
    | none => []
    | some (a, r) =>
      match pick r (Config.sumOrder site (2 * fuel + 1)) with
      | none => [a]
      | some (b, r) => joinProduct site fuel (joinFactors a b :: r)

/-- A product of some factors over some divisors, rounded at each step, in an order left open. -/
def openProduct (site : Nat) (num den : List Nat) : NumR :=
  let l := num.map (fun a => (false, ((a, 0) : NumR))) ++ den.map (fun a => (true, ((a, 0) : NumR)))
  match joinProduct site l.length l with
  | (false, r) :: _ => r
  | (true, r) :: _ => let q := f32Div false 0x3F800000 r.1; (q.1, q.2 ||| r.2)
  | [] => (0x3F800000, 0)

/-- A term of a sum: whether it is subtracted, its factors and its divisors. -/
structure Term where
  neg : Bool
  num : List Nat
  den : List Nat

/-- A sum of terms, each step rounded, in orders left open; every step's flags count. -/
def openTerms (site : Nat) (l : List Term) : NumR :=
  openSum false 63 site (l.mapIdx (fun i t =>
    let r := openProduct (site + 2 ^ 40 * (i + 1)) t.num t.den
    (if t.neg then f32Neg r.1 else r.1, r.2)))

/-- A place of its own for the order of a sum: what is summed, and three indices. -/
def siteOf (kind a b c : Nat) : Nat := kind + 16 * (a % 2 ^ 20 + 2 ^ 20 * (b % 2 ^ 20 + 2 ^ 20 * c)) * 2 ^ 80

/-! ## Cholesky factors (R290 to R292) -/

/-- A pivot is NaN, or at or below the floor times its diagonal entry (R292). -/
def pivotIll (floor pivot diag : Nat) : Bool :=
  (fmtF32.decode pivot).isNan || !f32Lt (f32Mul false floor diag).1 pivot

/-- A Cholesky factor: its rows up to the diagonal, the first ill-posed row, and the flags raised. -/
structure Chol where
  rows : List (List Nat)
  ill : Option Nat
  flags : Nat
  deriving DecidableEq, Repr

def Chol.at_ (c : Chol) (i k : Nat) : Nat := (c.rows.getD i []).getD k 0

/-- An entry less the products of the parts of two rows before a column. -/
def lessProducts (site a : Nat) (r t : List Nat) : NumR :=
  openTerms site (⟨false, [a], []⟩ :: (r.zip t).map (fun e => ⟨true, [e.1, e.2], []⟩))

/-- The part of row i before the diagonal: its first `k` entries, with the flags raised. -/
def Chol.row (c : Chol) (site i : Nat) (a : Nat → Nat → Nat) : Nat → Flagged
  | 0 => ([], 0)
  | k + 1 =>
    let r := c.row site i a k
    let v := lessProducts (siteOf site i k 0) (a i k) r.1 ((c.rows.getD k []).take k)
    let q := f32Div false v.1 (c.at_ k k)
    (r.1 ++ [q.1], r.2 ||| v.2 ||| q.2)

/-- Factor the first n rows of a matrix; `diag` is the entry each pivot is held against (R292). -/
def cholesky (site floor : Nat) (diag : Nat → Nat) (a : Nat → Nat → Nat) : Nat → Chol
  | 0 => { rows := [], ill := none, flags := 0 }
  | n + 1 =>
    let c := cholesky site floor diag a n
    if c.ill.isSome then c else
    let r := c.row site n a n
    let p := lessProducts (siteOf site n n 1) (a n n) r.1 r.1
    let fl := c.flags ||| r.2 ||| p.2
    if pivotIll floor p.1 (diag n) then { c with ill := some n, flags := fl }
    else
      let d := f32Sqrt p.1
      { rows := c.rows ++ [r.1 ++ [d.1]], ill := none, flags := fl ||| d.2 }

/-- Solve L y = b for the first n entries. -/
def Chol.forward (c : Chol) (site : Nat) (b : Nat → Nat) : Nat → Flagged
  | 0 => ([], 0)
  | k + 1 =>
    let y := c.forward site b k
    let v := lessProducts (siteOf site k 0 2) (b k) ((c.rows.getD k []).take k) y.1
    let q := f32Div false v.1 (c.at_ k k)
    (y.1 ++ [q.1], y.2 ||| v.2 ||| q.2)

/-- Solve Lᵀ x = y for the last entries of n, `left` of them still to do. -/
def Chol.backward (c : Chol) (site n : Nat) (y : List Nat) : Nat → Flagged
  | 0 => ([], 0)
  | m + 1 =>
    let x := c.backward site n y m
    let k := n - (m + 1)
    let v := lessProducts (siteOf site k 0 3) (y.getD k 0) ((rangeFrom (k + 1) m).map (fun l => c.at_ l k)) x.1
    let q := f32Div false v.1 (c.at_ k k)
    (q.1 :: x.1, x.2 ||| v.2 ||| q.2)

/-- Solve L Lᵀ x = b for n unknowns. -/
def Chol.solve (c : Chol) (site n : Nat) (b : Nat → Nat) : Flagged :=
  let y := c.forward site b n
  let x := c.backward site n y.1 n
  (x.1, y.2 ||| x.2)

/-! ## Rotations (R289, R290) -/

/-- Exp(ω) in FP32, by rows, within the bound that R306 gives its elements (log entry 9); all NaN where ω is not finite. -/
def expF32 (w : List Nat) : List Nat :=
  match expRot w with
  | some m => m.mapIdx (fun k e => rotNear (Config.solverWord 0 w k % 2 ^ 32) e)
  | none => List.replicate 9 f32Nan

/-- Sine and cosine of a fixed-point angle, by their series. -/
def trigSeries (x : Int) : Nat → Nat → Int → Int → Int → Int × Int
  | 0, _, _, s, c => (s, c)
  | fuel + 1, n, t, s, c =>
    let one : Int := (2 ^ rotBits : Nat)
    let t1 := t * x / one / (n + 1 : Nat)
    let t2 := -(t1 * x / one) / (n + 2 : Nat)
    trigSeries x fuel (n + 2) t2 (s + t1) (c + t2)

def trigFixed (x : Int) : Int × Int := trigSeries x 100 0 (2 ^ rotBits : Nat) 0 (2 ^ rotBits : Nat)

/-- The largest angle of a fixed-point bit pattern that `below` admits, bit by bit. -/
def angleGo (below : Int → Bool) : Nat → Nat → Nat
  | 0, r => r
  | n + 1, r => let t := r + 2 ^ n; angleGo below n (if below (t : Nat) then t else r)

/-- π in fixed point, rounded down. -/
def piFixed : Nat := 314159265358979323846264338327950288419716939937510 * 2 ^ rotBits / 10 ^ 50

/-- The rotation vector of a rotation matrix in fixed point, with an angle of at most π: its angle from its sine or its cosine,
its axis from the skew part, or from the symmetric part where the angle is obtuse. -/
def logRot (m : List Int) : List Int :=
  let one : Int := (2 ^ rotBits : Nat)
  let e := fun r c => m.getD (3 * r + c) 0
  let cosA := (e 0 0 + e 1 1 + e 2 2 - one) / 2
  let s : List Int := [(e 2 1 - e 1 2) / 2, (e 0 2 - e 2 0) / 2, (e 1 0 - e 0 1) / 2]
  let sinA : Int := (isqrt (s.foldl (fun t v => t + v * v) 0).toNat : Nat)
  if 0 ≤ cosA then
    let a : Int := (min piFixed (angleGo (fun t => 2 * t ≤ piFixed && (trigFixed t).1 ≤ sinA) (rotBits + 2) 0) : Nat)
    if sinA == 0 then [0, 0, 0] else s.map (fun v => v * a / sinA)
  else
    let a : Int := (min piFixed (angleGo (fun t => t ≤ piFixed && cosA ≤ (trigFixed t).2) (rotBits + 2) 0) : Nat)
    let b := fun r c => (e r c + e c r) / 2 - (if r == c then cosA else 0)
    let k := if b 1 1 ≤ b 0 0 && b 2 2 ≤ b 0 0 then 0 else if b 2 2 ≤ b 1 1 then 1 else 2
    let axis := (List.range 3).map (fun i => b i k)
    let n : Int := (isqrt (axis.foldl (fun t v => t + v * v) 0).toNat : Nat)
    let turn := (List.zipWith (· * ·) axis s).foldl (· + ·) 0
    axis.map (fun v => (if turn < 0 then -v else v) * a / max 1 n)

/-- A fixed-point value as F32, rounded towards 0. -/
def fixedCut (v : Int) : Nat :=
  let r := fixedToF32 v
  match fixedOf r with
  | some f => if v.natAbs < f.natAbs then r - 1 else r
  | none => r

/-- A rotation vector has a finite length of at most π. -/
def withinPi (w : List Nat) : Bool :=
  match fixedOf (w.getD 0 0), fixedOf (w.getD 1 0), fixedOf (w.getD 2 0) with
  | some x, some y, some z => x * x + y * y + z * z ≤ (piFixed * piFixed : Nat)
  | _, _, _ => false

/-- R ← Exp(δω) R with |ω| ≤ π (R290): free words whose rotation has every element within 2⁻²⁰ of the exact one and whose
length is at most π, else the exact vector rounded towards 0 (log entry 9). -/
def turnPose (dw w : List Nat) : List Nat :=
  match expRot dw, expRot w with
  | some a, some b =>
    let m := mul3 a b
    let v := (List.range 3).map (fun k => Config.solverWord 1 (dw ++ w) k % 2 ^ 32)
    let near := match expRot v with
      | some r => (r.zip m).all (fun e => (e.1 - e.2).natAbs ≤ 2 ^ (rotBits - 20))
      | none => false
    if near && withinPi v then v else (logRot m).map fixedCut
  | _, _ => List.replicate 3 f32Nan

/-! ## Observations (R288, R289) -/

/-- What an observation gives an iteration: its point and pose, its weight, its residual, and the derivatives of both
components by the pose and by the point. -/
structure ObsRow where
  pt : Nat
  ps : Nat
  w : Nat
  r : List Nat
  jp : List (List Nat)
  jx : List (List Nat)
  flags : Nat
  deriving DecidableEq, Repr

/-- Exp(ω) X and the camera point Exp(ω) X + t of an observation. -/
structure CamPoint where
  rot : List Nat
  p : List Nat
  x : List Nat
  flags : Nat

def Structure.camPoint (x : Structure) (n pt ps : Nat) : CamPoint :=
  let v := (x.poses.getD ps []).map f32Quiet
  let q := (x.points.getD pt []).map f32Quiet
  let m := expF32 (v.take 3)
  let p := gather ((List.range 3).map (fun r =>
    openTerms (siteOf 1 n r 0) ((List.range 3).map (fun c => ⟨false, [m.getD (3 * r + c) 0, q.getD c 0], []⟩))))
  let c := gather ((List.range 3).map (fun r => f32Add false (p.1.getD r 0) (v.getD (3 + r) 0)))
  { rot := m, p := p.1, x := c.1, flags := p.2 ||| c.2 }

/-- The residual of an observation: (x ÷ z, y ÷ z) − (u, v). -/
def residual (x uv : List Nat) : Flagged :=
  gather ((List.range 2).map (fun r =>
    let q := f32Div false (x.getD r 0) (x.getD 2 0)
    let d := f32Sub false q.1 (uv.getD r 0)
    (d.1, d.2 ||| q.2)))

/-- The derivatives of component r of the projection: by δω with R ← Exp(δω) R, then by t, then by the point. -/
def projTerms (c : CamPoint) (r : Nat) : List (List Term) :=
  let z := c.x.getD 2 0
  let x := c.x.getD r 0
  let p := fun k => c.p.getD k 0
  let m := fun i k => c.rot.getD (3 * i + k) 0
  let omega : List (List Term) :=
    if r == 0 then
      [[⟨true, [x, p 1], [z, z]⟩], [⟨false, [p 2], [z]⟩, ⟨false, [x, p 0], [z, z]⟩], [⟨true, [p 1], [z]⟩]]
    else
      [[⟨true, [p 2], [z]⟩, ⟨true, [x, p 1], [z, z]⟩], [⟨false, [x, p 0], [z, z]⟩], [⟨false, [p 0], [z]⟩]]
  let unit : Term := ⟨false, [], [z]⟩
  let byT : List (List Term) := [if r == 0 then [unit] else [], if r == 1 then [unit] else [], [⟨true, [x], [z, z]⟩]]
  omega ++ byT ++ (List.range 3).map (fun k => [⟨false, [m r k], [z]⟩, ⟨true, [x, m 2 k], [z, z]⟩])

/-- One observation: none where its weight is 0 (R288); whether it is left out for its depth (R289). -/
def Structure.obsRow (x : Structure) (zMin n : Nat) (o : Nat × Nat) (m : List Nat) : Option ObsRow × Bool :=
  let c := x.camPoint n o.1 o.2
  let uvw := m.map f32Quiet
  if f32Lt (c.x.getD 2 0) zMin then (none, true)
  else if (fmtF32.decode (uvw.getD 2 0)).isZero then (none, false)
  else
    let r := residual c.x uvw
    let j := (List.range 2).map (fun i => gather ((projTerms c i).mapIdx (fun k t => openTerms (siteOf 2 n i k) t)))
    (some { pt := o.1, ps := o.2, w := uvw.getD 2 0, r := r.1, jp := j.map (·.1.take 6), jx := j.map (·.1.drop 6),
            flags := j.foldl (fun f e => f ||| e.2) (c.flags ||| r.2) }, false)

/-- The observations that contribute, in ascending order, and how many are left out. -/
def Structure.obsRows (x : Structure) (zMin : Nat) : List ObsRow × Nat :=
  let l := (x.obs.zip x.meas).mapIdx (fun n e => x.obsRow zMin n e.1 e.2)
  (l.filterMap (·.1), (l.filter (·.2)).length)

/-- The cost Σ w × |residual|² (R289), its outer sum in open order. -/
def costOf (l : List ObsRow) : Nat :=
  (openSum false 63 (siteOf 3 0 0 0) (l.map (fun o =>
    f32Mul false o.w (f32Add false (f32Mul false (o.r.getD 0 0) (o.r.getD 0 0)).1
      (f32Mul false (o.r.getD 1 0) (o.r.getD 1 0)).1).1))).1

/-! ## The normal equations (R290 steps 1 and 2) -/

/-- A sum over observations in ascending order. -/
def obsSum (l : List ObsRow) (f : ObsRow → NumR) : NumR :=
  l.foldl (fun a o =>
    let c := f o
    let t := f32Add false a.1 c.1
    (t.1, a.2 ||| c.2 ||| t.2)) (0, 0)

/-- w (a₀ b₀ + a₁ b₁) of one observation, for two components of its residual. -/
def ObsRow.term (o : ObsRow) (site : Nat) (a b : Nat → Nat) : NumR :=
  openTerms site ((List.range 2).map (fun i => ⟨false, [o.w, a i, b i], []⟩))

def colOf (j : List (List Nat)) (k i : Nat) : Nat := (j.getD i []).getD k 0

/-- An entry of a diagonal block, damped on its diagonal. -/
def blockEntry (l : List ObsRow) (site : Nat) (j : ObsRow → List (List Nat)) (lam : Option Nat) (a b : Nat) : NumR :=
  let d := obsSum l (fun o => o.term (siteOf site o.pt o.ps (8 * a + b)) (colOf (j o) a) (colOf (j o) b))
  match (if a == b then lam else none) with
  | none => d
  | some v =>
    let k := f32Add false 0x3F800000 v
    let r := f32Mul false d.1 k.1
    (r.1, d.2 ||| k.2 ||| r.2)

/-- A square block by rows. -/
def blockOf (l : List ObsRow) (site n : Nat) (j : ObsRow → List (List Nat)) (lam : Option Nat) : List Flagged :=
  (List.range n).map (fun a => gather ((List.range n).map (fun b => blockEntry l site j lam (min a b) (max a b))))

/-- The right side −Jᵀ w r of a block. -/
def rhsOf (l : List ObsRow) (site n : Nat) (j : ObsRow → List (List Nat)) : Flagged :=
  let g := gather ((List.range n).map (fun a =>
    obsSum l (fun o => o.term (siteOf site o.pt o.ps (8 * a + 7)) (colOf (j o) a) (fun i => o.r.getD i 0))))
  (g.1.map f32Neg, g.2)

/-- A point block: its factor, and its right side. -/
structure PointBlock where
  pt : Nat
  chol : Chol
  y : List Nat
  flags : Nat

def pointBlock (l : List ObsRow) (floor : Nat) (lam : Option Nat) (pt : Nat) : PointBlock :=
  let rows := l.filter (fun o => o.pt == pt)
  let v := blockOf rows 4 3 (·.jx) lam
  let at_ := fun i k => (v.getD i ([], 0)).1.getD k 0
  let c := cholesky 5 floor (fun i => at_ i i) at_ 3
  let g := rhsOf rows 4 3 (·.jx)
  let y := if c.ill.isSome then ([], 0) else c.forward (siteOf 5 pt 0 0) (fun k => g.1.getD k 0) 3
  { pt := pt, chol := c, y := y.1, flags := v.foldl (fun f e => f ||| e.2) (c.flags ||| g.2 ||| y.2) }

/-! ## The reduced system (R290 steps 3 and 4) -/

/-- What an observation of a free pose brings into the reduced system: L⁻¹ Wᵀ, a column for each pose parameter. -/
structure Coupling where
  ps : Nat
  block : PointBlock
  cols : List (List Nat)
  flags : Nat

def couplingOf (b : PointBlock) (o : ObsRow) : Coupling :=
  let l := (List.range 6).map (fun a =>
    let w := gather ((List.range 3).map (fun k => o.term (siteOf 6 o.pt o.ps (8 * a + k)) (colOf o.jp a) (colOf o.jx k)))
    let y := b.chol.forward (siteOf 7 o.pt o.ps a) (fun k => w.1.getD k 0) 3
    (y.1, w.2 ||| y.2))
  { ps := o.ps, block := b, cols := l.map (·.1), flags := l.foldl (fun f e => f ||| e.2) 0 }

/-- The pose system: for each free pose its damped block and right side, and the couplings through the points. -/
structure PoseSystem where
  free : List Nat
  blocks : List (List Flagged)
  rhs : List Flagged
  coup : List Coupling

/-- Entry of parameter a of pose m with parameter b of pose n, m and n counted among the free poses. -/
def PoseSystem.entry (q : PoseSystem) (m a n b : Nat) : NumR :=
  let base := if m == n then [⟨false, [((q.blocks.getD m []).getD a ([], 0)).1.getD b 0], []⟩] else []
  let with_ := fun (i : Nat) => q.coup.filter (fun c => some c.ps == q.free[i]?)
  openTerms (siteOf 8 (8 * m + a) (8 * n + b) 0) (base ++ (with_ m).flatMap (fun c =>
    ((with_ n).filter (fun d => d.block.pt == c.block.pt)).flatMap (fun d =>
      (List.range 3).map (fun k => (⟨true, [(c.cols.getD a []).getD k 0, (d.cols.getD b []).getD k 0], []⟩ : Term)))))

def PoseSystem.side (q : PoseSystem) (m a : Nat) : NumR :=
  openTerms (siteOf 9 m a 0) (⟨false, [((q.rhs.getD m ([], 0)).1.getD a 0)], []⟩ ::
    (q.coup.filter (fun c => some c.ps == q.free[m]?)).flatMap (fun c =>
      (List.range 3).map (fun k => ⟨true, [(c.cols.getD a []).getD k 0, c.block.y.getD k 0], []⟩)))

/-- The damped diagonal entry of a parameter. -/
def PoseSystem.diag (q : PoseSystem) (m a : Nat) : Nat := ((q.blocks.getD m []).getD a ([], 0)).1.getD a 0

/-- Factor the system over the poses that are left, numbered among the free ones; an ill-posed pose is removed and the rest
factored again (R292). -/
def PoseSystem.factor (q : PoseSystem) (floor : Nat) : Nat → List Nat → List Nat × Chol × Nat
  | 0, act => (act, { rows := [], ill := none, flags := 0 }, 0)
  | fuel + 1, act =>
    let m := fun i => act.getD (i / 6) 0
    let c := cholesky 10 floor (fun i => q.diag (m i) (i % 6)) (fun i k => (q.entry (m i) (i % 6) (m k) (k % 6)).1) (6 * act.length)
    match c.ill with
    | none => (act, c, c.flags)
    | some i =>
      let r := q.factor floor fuel (act.eraseIdx (i / 6))
      (r.1, r.2.1, r.2.2 ||| c.flags)

/-! ## One iteration (R290, R292) -/

/-- What an iteration leaves: the new values, with the old ones in ill-posed blocks, the ill-posed blocks, the observations
left out, the flags, and whether no increment exceeded `TOL`. -/
structure BaIter where
  x : Structure
  illPoints : List Nat
  illPoses : List Nat
  left : Nat
  flags : Nat
  small : Bool
  deriving DecidableEq, Repr

/-- A magnitude is not above a bound. -/
def f32Within (tol v : Nat) : Bool := !f32Lt tol (v % 2 ^ 31)

/-- What a solve is asked: the depth and pivot floors, the damping, the stop and whether points are constants. -/
structure BaArgs where
  zMin : Nat
  floor : Nat
  lam : Option Nat
  tol : Nat
  poseOnly : Bool

/-- Apply the increments of the blocks solved for (R290 step 5). -/
def Structure.moved (x : Structure) (dPose dPoint : Nat → Option (List Nat)) : Structure × Nat :=
  let poses := x.poses.mapIdx (fun i o => match dPose i with
    | none => (o, 0)
    | some d =>
      let t := gather ((List.range 3).map (fun k => f32Add false (f32Quiet (o.getD (3 + k) 0)) (d.getD (3 + k) 0)))
      (turnPose (d.take 3) (o.take 3) ++ t.1, t.2))
  let points := x.points.mapIdx (fun j o => match dPoint j with
    | none => (o, 0)
    | some d => gather ((List.range 3).map (fun k => f32Add false (f32Quiet (o.getD k 0)) (d.getD k 0))))
  ({ x with poses := poses.map (·.1), points := points.map (·.1) },
   (poses ++ points).foldl (fun f e => f ||| e.2) 0)

/-- One iteration of SLV_SOLVE_BA. -/
def Structure.iterate (x : Structure) (g : BaArgs) : BaIter :=
  let (rows, left) := x.obsRows g.zMin
  -- step 3: the point blocks; the observations of an ill-posed one are left out of the reduced system
  let blocks := if g.poseOnly then [] else (List.range x.q).map (pointBlock rows g.floor g.lam)
  let illPoints := (blocks.filter (·.chol.ill.isSome)).map (·.pt)
  let good := blocks.filter (·.chol.ill.isNone)
  let kept := rows.filter (fun o => !illPoints.contains o.pt)
  let free := (List.range x.p).filter (fun i => !bitOf x.fixed i)
  let ofPose := fun i => kept.filter (fun o => o.ps == i)
  let q : PoseSystem :=
    { free := free, blocks := free.map (fun i => blockOf (ofPose i) 11 6 (·.jp) g.lam),
      rhs := free.map (fun i => rhsOf (ofPose i) 11 6 (·.jp)),
      coup := (kept.filter (fun o => free.contains o.ps)).filterMap (fun o =>
        (good.find? (fun b => b.pt == o.pt)).map (fun b => couplingOf b o)) }
  -- step 4: the reduced system
  let (act, c, fl) := q.factor g.floor (free.length + 1) (List.range free.length)
  let side := fun i => q.side (act.getD (i / 6) 0) (i % 6)
  let d := c.solve 12 (6 * act.length) (fun i => (side i).1)
  let active := act.map (fun m => free.getD m 0)
  let dPose := fun i => (active.findIdx? (· == i)).map (fun m => (d.1.drop (6 * m)).take 6)
  let points := good.map (fun b =>
    let y := gather ((List.range 3).map (fun k =>
      openTerms (siteOf 13 b.pt k 0) (⟨false, [b.y.getD k 0], []⟩ ::
        (q.coup.filter (fun c => c.block.pt == b.pt)).flatMap (fun c => match dPose c.ps with
          | none => []
          | some e => (List.range 6).map (fun a => (⟨true, [(c.cols.getD a []).getD k 0, e.getD a 0], []⟩ : Term))))))
    let v := b.chol.backward (siteOf 14 b.pt 0 0) 3 y.1 3
    (b.pt, v.1, y.2 ||| v.2))
  let dPoint := fun j => (points.find? (fun e => e.1 == j)).map (·.2.1)
  -- step 5
  let m := x.moved dPose dPoint
  let entries := (List.range (6 * act.length)).map (fun i => (side i).2) ++
    (List.range (6 * act.length)).flatMap (fun i => (List.range (6 * act.length)).map (fun k =>
      (q.entry (act.getD (i / 6) 0) (i % 6) (act.getD (k / 6) 0) (k % 6)).2))
  { x := m.1, illPoints := illPoints, illPoses := free.filter (fun i => !active.contains i), left := left,
    flags := rows.foldl (fun f o => f ||| o.flags) 0 ||| blocks.foldl (fun f b => f ||| b.flags) 0 |||
      (q.blocks.flatten ++ q.rhs).foldl (fun f e => f ||| e.2) 0 ||| q.coup.foldl (fun f e => f ||| e.flags) 0 |||
      entries.foldl (· ||| ·) 0 ||| fl ||| d.2 ||| points.foldl (fun f e => f ||| e.2.2) 0 ||| m.2,
    small := d.1.all (f32Within g.tol) && points.all (fun e => e.2.1.all (f32Within g.tol)) }

end Sys2Proof.Machine
end

