-- ==== Sys2Proof/Machine/Solver.lean ====
section
/-! DEFINITION. The commands of the Least-Squares Solver: resident structures, bundle adjustment, dense solves, deadlines and
commits (R286 to R294, R297). -/

namespace Sys2Proof.Machine

/-! ## Places and fields (R286) -/

/-- A range translates to DRAM or the Millpond: a fault, or whether it does. -/
def State.placeOk (s : State) (cl va n : Nat) (write : Bool) : State × Option MemFault × Bool :=
  (rangeFrom (va / 2 ^ 16) ((va + (max 1 n) - 1) / 2 ^ 16 + 1 - va / 2 ^ 16)).foldl
    (fun (a : State × Option MemFault × Bool) pg =>
      if a.2.1.isSome then a else
      let x := max va (pg * 2 ^ 16)
      match a.1.resolve cl x write with
      | (s, none) => (s.xlatFault cl x, some ⟨4, x⟩, a.2.2)
      | (s, some (.host _ _, _)) => (s, none, false)
      | (s, some _) => (s, none, a.2.2)) (s, none, true)

/-- Finite and at least +0. -/
def f32NonNeg (b : Nat) : Bool :=
  match fmtF32.decode b with
  | .fin neg _ _ => !neg
  | _ => false

/-- First offending field of a solver command (R286). -/
def solverBad (c : List Byte) : Option Nat :=
  let op := slotOpcode c
  if op == 0x10 then
    if fld c 24 1 > 3 then some 24
    else if fld c 25 1 == 0 || fld c 25 1 > 64 then some 25
    else if fld c 26 2 == 0 || fld c 26 2 > 16384 then some 26
    else if fld c 28 4 == 0 || fld c 28 4 > 262144 then some 28
    else none
  else if op == 0x11 then
    if fld c 24 1 > 3 then some 24
    else if fld c 25 1 > 3 then some 25
    else if fld c 26 1 == 0 || fld c 26 1 > 16 then some 26
    else if fld c 28 1 > 15 then some 28
    else if !zeros c 29 3 then some 29
    else if bitOf (fld c 25 1) 0 && !f32NonNeg (fld c 32 4) then some 32
    else if !f32NonNeg (fld c 36 4) then some 36
    else if !zeros c 60 4 then some 60
    else none
  else
    if fld c 24 2 == 0 || fld c 24 2 > 512 then some 24
    else if fld c 26 1 > 1 then some 26
    else if fld c 28 1 > 15 then some 28
    else if !zeros c 29 3 then some 29
    else if bitOf (fld c 26 1) 0 && !f32NonNeg (fld c 32 4) then some 32
    else if fld c 36 4 == 0 || fld c 36 4 > 65535 then some 36
    else none

/-- Check the places of a command in turn: (field offset, address, bytes, write). -/
def State.placesBad (s : State) (cl : Nat) (l : List (Nat × Nat × Nat × Bool)) :
    State × Option MemFault × Option Nat :=
  l.foldl (fun (a : State × Option MemFault × Option Nat) e =>
    if a.2.1.isSome || a.2.2.isSome then a else
    let r := a.1.placeOk cl e.2.1 e.2.2.1 e.2.2.2
    (r.1, r.2.1, if r.2.2 then none else some e.1)) (s, none, none)

/-! ## Deadlines (R293) -/

/-- The deadline of a solve has been reached. -/
def State.deadlinePassed (s : State) (j : Job) (c : List Byte) : Bool :=
  let t := j.startTick + fld c 28 1
  let n := s.get Od.TICK_COUNT
  let b := fld c 27 1
  s.on Od.TICK_EN && (t < n || (t == n && b < 255 && s.tick.since != 0 &&
    256 * (s.now - s.tick.lastAt) ≥ (b + 1) * s.tick.predicted))

/-- A solve that misses its deadline writes nothing (R293). -/
def State.missSolve (s : State) (j : Job) : State :=
  let s := (s.inc Od.SLV_MISSED).set Od.SLV_LAST_MISS j.handle
  s.endCmd j.id St.DEADLINE_MISSED [] 0

/-! ## SLV_UPLOAD (R287) -/

def State.putStructure (s : State) (k client pairs : Nat) (x : Structure) : State :=
  let s := { s with solver := { s.solver with slots := mset s.solver.slots k x } }
  s.sets [(Od.ST_STATE k, 2), (Od.ST_OWNER k, client), (Od.ST_POSES k, x.p), (Od.ST_POINTS k, x.q),
          (Od.ST_OBS k, x.o), (Od.ST_PAIRS k, pairs)]

/-- A slot is emptied (R297). -/
def State.emptyStructure (s : State) (k : Nat) : State :=
  let s := { s with solver := { s.solver with slots := mdel s.solver.slots k } }
  s.sets [(Od.ST_STATE k, 0), (Od.ST_OWNER k, 0), (Od.ST_POSES k, 0), (Od.ST_POINTS k, 0), (Od.ST_OBS k, 0), (Od.ST_PAIRS k, 0)]

/-- (point, pose) of an entry of `OBS_VA`; none where another bit is set or an index is out of range. -/
def obsOf (p q e : Nat) : Option (Nat × Nat) :=
  let pt := bitsOf e 0 14
  let ps := bitsOf e 16 6
  if bitsOf e 14 2 != 0 || bitsOf e 22 10 != 0 || pt ≥ q || ps ≥ p then none else some (pt, ps)

/-- Strictly ascending (point, pose) order. -/
def obsAscending : List (Nat × Nat) → Bool
  | a :: b :: r => (a.1 < b.1 || (a.1 == b.1 && a.2 < b.2)) && obsAscending (b :: r)
  | _ => true

/-- Pose pairs (i ≤ j), both free, that observe a common point. -/
def posePairs (fixed : Nat) (obs : List (Nat × Nat)) : Nat :=
  let ps := obs.filter (fun o => !bitOf fixed o.2)
  (ps.flatMap (fun a => (ps.filter (fun b => a.1 == b.1 && a.2 ≤ b.2)).map (fun b => (a.2, b.2)))).eraseDups.length

def storeBytes (p q o s : Nat) : Nat := 4096 + 24 * o + 48 * q + 144 * s + 64 * p

/-- `n` groups of `m` F32 values from an offset. -/
def f32Groups (b : List Byte) (off n m : Nat) : List (List Nat) :=
  (List.range n).map (fun i => (List.range m).map (fun k => fld b (off + 4 * (m * i + k)) 4))

/-- The store's bytes are the device's own: free (R287). -/
def State.fillStore (s : State) (cl va n : Nat) : MRes :=
  (List.range (ceilDiv n 256)).foldl (fun (a : MRes) i =>
    if a.2.isSome then a else a.1.spend.wr cl (va + 256 * i) (a.1.freeBytes (min 256 (n - 256 * i)))) (s, none)

/-- A slot that an upload may take: EMPTY, or the client's own RESIDENT one (R294). -/
def State.uploadOk (s : State) (cl k : Nat) : Bool :=
  s.get (Od.ST_STATE k) == 0 || (s.get (Od.ST_STATE k) == 2 && s.get (Od.ST_OWNER k) == cl)

def State.uploadCmd (s : State) (j : Job) (c : List Byte) : State :=
  let cl := j.client
  let k := fld c 24 1
  let p := fld c 25 1
  let q := fld c 26 2
  let o := fld c 28 4
  let store := fld c 40 8
  let fixed := fld c 48 8
  match solverBad c with
  | some off => s.faultCmd j.id 2 0 off 0
  | none =>
    if !s.uploadOk cl k then s.faultCmd j.id 2 0 24 0 else
    match s.placesBad cl [(32, fld c 32 8, 4 * o, false), (56, fld c 56 8, 4 * (6 * p + 3 * q + 3 * o), false)] with
    | (s, some f, _) => s.faultCmdMem j.id f 0 0
    | (s, none, some off) => s.faultCmd j.id 2 0 off 0
    | (s, none, none) =>
      match s.rd cl (fld c 32 8) (4 * o) with
      | (s, _, some f) => s.faultCmdMem j.id f 0 0
      | (s, ob, none) =>
        let es := (List.range o).map (fun i => obsOf p q (fld ob (4 * i) 4))
        let obs := es.filterMap id
        if es.any Option.isNone || !obsAscending obs then s.faultCmd j.id 2 0 32 0 else
        let pairs := posePairs fixed obs
        let n := storeBytes p q o pairs
        match s.placesBad cl [(40, store, n, true)] with
        | (s, some f, _) => s.faultCmdMem j.id f 0 0
        | (s, none, some off) => s.faultCmd j.id 2 0 off 0
        | (s, none, none) =>
          match s.rd cl (fld c 56 8) (4 * (6 * p + 3 * q + 3 * o)) with
          | (s, _, some f) => s.faultCmdMem j.id f 0 0
          | (s, ib, none) =>
            match s.fillStore cl store n with
            | (s, some f) => s.faultCmdMem j.id f 0 0
            | (s, none) =>
              let x : Structure := { store := store, p := p, q := q, o := o, fixed := fixed, obs := obs,
                                     poses := f32Groups ib 0 p 6, points := f32Groups ib (24 * p) q 3,
                                     meas := f32Groups ib (24 * p + 12 * q) o 3 }
              (s.putStructure k cl pairs x).endCmd j.id St.OK (toLe 4 pairs ++ toLe 4 n) 0

/-! ## Updates (R288) -/

/-- Apply one entry: none where its kind or index breaks R288; its reserved bytes are ignored (R6). -/
def Structure.update (x : Structure) (e : List Byte) : Option Structure :=
  let kind := bitsOf (fld e 0 4) 30 2
  let i := bitsOf (fld e 0 4) 0 30
  let v := fun n => (List.range n).map (fun k => fld e (4 + 4 * k) 4)
  if kind == 0 && i < x.o then some { x with meas := x.meas.set i (v 3) }
  else if kind == 1 && i < x.p then some { x with poses := x.poses.set i (v 6) }
  else if kind == 2 && i < x.q then some { x with points := x.points.set i (v 3) }
  else none

/-- Apply an update list in order: the result, or the first bad entry. -/
def Structure.updates (x : Structure) (b : List Byte) (n : Nat) : Structure × Option Nat :=
  (List.range n).foldl (fun (a : Structure × Option Nat) i =>
    match a.2 with
    | some _ => a
    | none => match a.1.update (slice b (32 * i) 32) with
      | some y => (y, none)
      | none => (a.1, some i)) (x, none)

/-! ## Bundle adjustment (R289, R290, R292, R294) -/

def BaRun.start (x : Structure) : BaRun :=
  { x := x, it := 0, illPoints := [], illPoses := [], left := 0, cost := 0, flags := 0 }

/-- The final cost: that of the values an iteration began with or of those it leaves, which the spec does not say (log entry 9). -/
def finalCost (g : BaArgs) (before after : Structure) : Nat :=
  costOf ((if Config.sumOrder (siteOf 15 0 0 0) 0 % 2 == 0 then after else before).obsRows g.zMin).1

/-- One iteration of a solve. -/
def BaRun.step (w : BaRun) (g : BaArgs) : BaRun × Bool :=
  let r := w.x.iterate g
  ({ x := r.x, it := w.it + 1, illPoints := r.illPoints, illPoses := r.illPoses, left := r.left,
     cost := finalCost g w.x r.x, flags := w.flags ||| r.flags }, g.tol != 0 && r.small)

/-- Iterations until `ITER`, the first ill-posed pivot, or increments within `TOL` (R290, R292), past `cut` pre-emption points
(R184): what stands, and whether the solve is over. -/
def BaRun.run (g : BaArgs) : Nat → Option Nat → BaRun → BaRun × Bool
  | 0, _, w => (w, true)
  | left + 1, cut, w =>
    if cut == some 0 then (w, false) else
    let (v, small) := w.step g
    if !v.illPoints.isEmpty || !v.illPoses.isEmpty || small then (v, true)
    else BaRun.run g left (cut.map (· - 1)) v

def f32Bytes (l : List Nat) : List Byte := l.flatMap (toLe 4)

/-- Ill-posed blocks of a solve. -/
def BaRun.ill (w : BaRun) : Nat := w.illPoints.length + w.illPoses.length

/-- The poses and points that go to `OUT_VA`, with NaN for ill-posed blocks (R294). -/
def BaRun.output (w : BaRun) : List Byte :=
  let nan := fun n => List.replicate n f32Nan
  f32Bytes (w.x.poses.mapIdx (fun i o => if w.illPoses.contains i then nan 6 else o)).flatten ++
    f32Bytes (w.x.points.mapIdx (fun i o => if w.illPoints.contains i then nan 3 else o)).flatten

/-- The store after the commit: ill-posed blocks keep what it held before the job (R294; log entry 9). -/
def BaRun.stored (w : BaRun) (old : Structure) : Structure :=
  { w.x with poses := w.x.poses.mapIdx (fun i o => if w.illPoses.contains i then old.poses.getD i [] else o),
             points := w.x.points.mapIdx (fun i o => if w.illPoints.contains i then old.points.getD i [] else o) }

/-- A solve completes OK or ILL_POSED. -/
def State.endSolve (s : State) (id : JobId) (ill : Bool) (detail : List Byte) (fl : Nat) : State :=
  let s := (s.inc Od.SLV_SOLVES).when ill (·.inc Od.SLV_ILL)
  s.endCmd id (if ill then St.ILL_POSED else St.OK) detail fl

/-- What a SLV_SOLVE_BA asks (R286, R289, R292). -/
def State.baArgs (s : State) (c : List Byte) : BaArgs :=
  { zMin := s.get Od.SLV_Z_MIN, floor := s.get Od.SLV_PIVOT_FLOOR,
    lam := if bitOf (fld c 25 1) 0 then some (fld c 32 4) else none, tol := fld c 36 4, poseOnly := bitOf (fld c 25 1) 1 }

/-- Keep a solve that stands at a point; those of jobs that have ended go. -/
def State.putSolve (s : State) (id : JobId) (w : BaRun) : State :=
  { s with solver := { s.solver with
    works := (id, w) :: s.solver.works.filter (fun e => e.1 != id && s.qs.jobs.any (fun j => j.id == e.1 && j.phase == .started)) } }

/-- The commit: outputs, the store's bytes, the resident values, `DETAIL` (R294). -/
def State.commitBa (s : State) (j : Job) (c : List Byte) (old : Structure) (w : BaRun) : State :=
  let k := fld c 24 1
  let n := storeBytes old.p old.q old.o (s.get (Od.ST_PAIRS k))
  match s.wr j.client (fld c 52 8) w.output with
  | (s, some f) => s.faultCmdMem j.id f 0 0
  | (s, none) =>
    match s.fillStore j.client old.store n with
    | (s, some f) => s.faultCmdMem j.id f 0 0
    | (s, none) =>
      let s := { s with solver := { slots := mset s.solver.slots k (w.stored old),
                                    works := s.solver.works.filter (fun e => e.1 != j.id) } }
      s.endSolve j.id (w.ill != 0) (toLe 2 w.it ++ toLe 2 w.ill ++ toLe 4 w.cost ++ toLe 4 w.left) w.flags

/-- A run of a solve's iterations, and its commit once they are over. The deadline is checked up to the commit (R293). -/
def State.runBa (s : State) (j : Job) (c : List Byte) (old : Structure) (w : BaRun) (cut : Option Nat) : State :=
  if s.deadlinePassed j c then s.missSolve j else
  match BaRun.run (s.baArgs c) (fld c 26 1 - w.it) cut w with
  | (w, false) => (s.putSolve j.id w).standAt j.id w.it (0, 0)
  | (w, true) => s.commitBa j c old w

/-- The structure that a solve may name: RESIDENT, of the job's client (R294). -/
def State.ownStructure (s : State) (cl k : Nat) : Option Structure :=
  if s.get (Od.ST_OWNER k) == cl then mget s.solver.slots k else none

/-- SLV_SOLVE_BA (R286, R288, R290): checked where it begins; it goes on where it stands. -/
def State.solveBaCmd (cut : Option Nat) (s : State) (j : Job) (c : List Byte) : State :=
  let cl := j.client
  let upd := fld c 48 4
  match solverBad c with
  | some off => s.faultCmd j.id 2 0 off 0
  | none =>
    match s.ownStructure cl (fld c 24 1) with
    | none => s.faultCmd j.id 2 0 24 0
    | some x =>
      match (if j.done == 0 then none else s.solver.works.find? (fun e => e.1 == j.id)) with
      | some (_, w) => s.runBa j c x w cut
      | none =>
        match s.placesBad cl ((if upd == 0 then [] else [(40, fld c 40 8, 32 * upd, false)]) ++
            [(52, fld c 52 8, 24 * x.p + 12 * x.q, true)]) with
        | (s, some f, _) => s.faultCmdMem j.id f 0 0
        | (s, none, some off) => s.faultCmd j.id 2 0 off 0
        | (s, none, none) =>
          match s.rd cl (fld c 40 8) (32 * upd) with
          | (s, _, some f) => s.faultCmdMem j.id f 0 0
          | (s, ub, none) =>
            match x.updates ub upd with
            | (_, some i) => s.faultCmd j.id 2 (i + 1) 0 0
            | (y, none) => s.runBa j c x (BaRun.start y) cut

/-! ## Dense solves (R291, R292) -/

/-- Σ over rows, in ascending order, of products, each step rounded to FP32 (R291). -/
def f32Dot (l : List (Nat × Nat)) : NumR :=
  l.foldl (fun (a : NumR) e =>
    let m := f32Mul false e.1 e.2
    let r := f32Add false a.1 m.1
    (r.1, a.2 ||| m.2 ||| r.2)) (0, 0)

/-- The normal equations: AᵀA with its damped diagonal, and Aᵀb, with the flags raised. -/
def normalEquations (n m lam : Nat) (lm : Bool) (a b : Nat → Nat) : List NumR × List NumR :=
  let col := fun j => (List.range m).map (fun i => a (n * i + j))
  let ata := (List.range n).flatMap (fun r => (List.range n).map (fun c =>
    let d := f32Dot ((col r).zip (col c))
    if lm && r == c then
      let k := f32Add false 0x3F800000 lam
      let v := f32Mul false d.1 k.1
      (v.1, d.2 ||| k.2 ||| v.2)
    else d))
  (ata, (List.range n).map (fun r => f32Dot ((col r).zip ((List.range m).map b))))

/-- A dense solve: x, whether it is ill-posed, and the flags raised (R291, R292). -/
def denseSolve (floor n m lam : Nat) (lm : Bool) (a b : Nat → Nat) : List Nat × Bool × Nat :=
  let e := normalEquations n m lam lm a b
  let at_ := fun i k => (e.1.getD (n * i + k) (0, 0)).1
  let c := cholesky 0 floor (fun i => at_ i i) at_ n
  let fl := rowFlags (e.1 ++ e.2) ||| c.flags
  if c.ill.isSome then (List.replicate n f32Nan, true, fl)
  else
    let x := c.solve 0 n (fun i => (e.2.getD i (0, 0)).1)
    (x.1, false, fl ||| x.2)

def State.denseCmd (s : State) (j : Job) (c : List Byte) : State :=
  let cl := j.client
  let n := fld c 24 2
  let m := fld c 36 4
  match solverBad c with
  | some off => s.faultCmd j.id 2 0 off 0
  | none =>
    match s.placesBad cl [(40, fld c 40 8, 4 * m * n, false), (48, fld c 48 8, 4 * m, false), (56, fld c 56 8, 4 * n, true)] with
    | (s, some f, _) => s.faultCmdMem j.id f 0 0
    | (s, none, some off) => s.faultCmd j.id 2 0 off 0
    | (s, none, none) =>
      match s.rd cl (fld c 40 8) (4 * m * n) with
      | (s, _, some f) => s.faultCmdMem j.id f 0 0
      | (s, ab, none) =>
        match s.rd cl (fld c 48 8) (4 * m) with
        | (s, _, some f) => s.faultCmdMem j.id f 0 0
        | (s, bb, none) =>
          if s.deadlinePassed j c then s.missSolve j else
          let r := denseSolve (s.get Od.SLV_PIVOT_FLOOR) n m (fld c 32 4) (bitOf (fld c 26 1) 0)
            (fun i => fld ab (4 * i) 4) (fun i => fld bb (4 * i) 4)
          match s.wr cl (fld c 56 8) (f32Bytes r.1) with
          | (s, some f) => s.faultCmdMem j.id f 0 0
          | (s, none) => s.endSolve j.id r.2.1 [] r.2.2

/-! ## Deadlines and clearing -/

/-- A solve reaches its deadline before its commit, also while it is pre-empted (R293). -/
def State.solveDeadline (s : State) (id : JobId) : State :=
  match s.job id with
  | none => s
  | some j =>
    let c := s.currentCmd j
    let solve := slotOpcode c == 0x11 || slotOpcode c == 0x12
    if engineOf id.q.val == 3 && j.phase == .started && solve && s.alive && s.deadlinePassed j c then s.missSolve j else s

/-- An upload that a slot accepts is in progress: a job that has started stands at it (R294, R297; log entry 39). -/
def State.uploading (s : State) (k : Nat) : Bool :=
  s.qs.jobs.any (fun j =>
    let c := s.currentCmd j
    j.phase == .started && engineOf j.id.q.val == 3 && slotOpcode c == 0x10 && fld c 24 1 == k && s.uploadOk j.client k)

/-- `ST_STATE` as it reads. -/
def State.stStateVal (s : State) (k : Nat) : Nat := if s.uploading k then 1 else s.get (Od.ST_STATE k)

/-- A write of `ST_CLEAR` (R297). -/
def State.wrStClear (s : State) (k v : Nat) : WRes :=
  if v != 1 then .ok s
  else if s.slotHeld k none then .no s Ab.BUSY
  else .ok (s.emptyStructure k)

/-! ## Commands -/

/-- `SLV_UPLOAD` (R287). -/
def execSlvUpload (dt : Nat) (j : JobId) (u : List Upset) (s : State) : Res :=
  .next (((s.advance dt).upsets u).runCmd j 3 0x10 State.uploadCmd)

/-- `SLV_SOLVE_BA` (R290). -/
def execSlvSolveBa (dt : Nat) (j : JobId) (u : Course) (s : State) : Res :=
  .next (((s.advance dt).upsets u.upsets).runCmd j 3 0x11 (State.solveBaCmd u.cut))

/-- `SLV_DENSE` (R291). -/
def execSlvDense (dt : Nat) (j : JobId) (u : List Upset) (s : State) : Res :=
  .next (((s.advance dt).upsets u).runCmd j 3 0x12 State.denseCmd)

/-- `SOLVE_DEADLINE` (R293). -/
def execSolveDeadline (dt : Nat) (j : JobId) (s : State) : Res := .next ((s.advance dt).solveDeadline j)

end Sys2Proof.Machine
end

