-- ==== Sys2Proof/Machine/Recovery.lean ====
section
/-! DEFINITION. The Governor and the Scarecrow, engine resets and client resets (R351 to R367). -/

namespace Sys2Proof.Machine

/-! ## Engine reset (R363 to R365) -/

/-- Engine objects of an engine code (R27, R365). -/
def engineObject (e : Nat) (k : Nat) (r : Row) : Bool :=
  let i := k / 256
  r.rdom == .engine &&
    (if e == 0 then i == 0x3000 || 0x7000 ≤ i
     else if e == 1 then i == 0x3100 || (0x3180 ≤ i && i < 0x3188)
     else if e == 2 then i == 0x3200 || (0x3210 ≤ i && i < 0x3220)
     else if e == 3 then i == 0x3300 || (0x3310 ≤ i && i < 0x3314)
     else false)

/-- What a reset does to the state of an engine beside its jobs and objects. -/
def State.clearEngine (s : State) (e : Nat) : State :=
  if e == 0 then { s with raster := Reset.raster }
  else if e == 1 then { s with serving := [] }
  else if e == 2 then { s with vision := Reset.vision }
  else if e == 3 then { s with solver := Reset.solver }
  -- no pipe is enabled: no PRESENT of the engine waits any more
  else if e == 4 then (List.range 4).foldl (fun s p => s.when (!(s.pipe p).ready.isEmpty)
    (fun s => s.putPipe p { s.pipe p with ready := [] })) s
  else s

/-- Complete the finished jobs at the front of several queues. -/
def State.drainQueues (s : State) (l : List Nat) (drop : Bool) : State := l.foldl (fun s q => s.drainQueue q drop) s

/-- A reset of an engine in the steps of R363. -/
def State.engineReset (s : State) (e : Nat) : State :=
  let epoch := (s.get (Od.RECOV_EPOCH e) + 1) % 2 ^ 16
  let s := s.set (Od.RECOV_EPOCH e) epoch
  let s := (s.abortJobs (fun j => engineOf j.id.q.val == e) (some epoch)).pruneXfers
  let s := s.drainQueues (queuesOf e) false
  let s := (s.clearEngine e).clearObjects (engineObject e)
  s.post 1 1 0x2600 e 0

/-- A write of ENGINE_RESET (R107, R108). -/
def State.wrEngineReset (s : State) (v : Nat) : WRes :=
  if v > 5 then .no s Ab.RANGE
  else if s.engineCode v != Ab.OK then .no s (s.engineCode v)
  else if v == 4 && (List.range 4).any s.pipeOn then .no s Ab.BUSY
  else .ok (s.engineReset v)

/-! ## Client reset (R367) -/

/-- Layers of a client stop being composed on a pipe, and its waiting PRESENTs are given up. -/
def State.dropLayers (s : State) (n p : Nat) : State :=
  let x := s.pipe p
  let mine := fun (l : Shown) => l.cfg.client == n
  let s := (x.layers.filter mine).foldl (fun (s : State) l =>
    let k := Od.L_STATE (layerNo p l.layer)
    s.set k (s.get k % 2 ^ 63)) s
  s.putPipe p { x with
    layers := x.layers.filter (fun l => !mine l),
    releasing := x.releasing.filter (fun l => !mine l),
    ready := x.ready.filter (fun r => r.cfg.client != n),
    good := x.good.map (fun g => (g.1.filter (fun l => !mine l), g.2)) }

/-- Kernel slots and solver slots of a client are emptied. -/
def State.dropSlots (s : State) (n : Nat) : State :=
  let s := (List.range 16).foldl (fun (s : State) k => s.dropKernel n k) s
  (List.range 4).foldl (fun (s : State) k =>
    if s.get (Od.ST_STATE k) != 0 && s.get (Od.ST_OWNER k) == n then s.emptyStructure k else s) s

/-- Held records of a client are discarded with its ring. -/
def State.dropHeld (s : State) (n : Nat) : State :=
  let lost := (s.heldOf n).length
  { s.incBy Od.RECOV_DROPPED lost with
    qs := { s.qs with held := mput [] s.qs.held n [], stalled := s.qs.stalled.filter (· != n) } }

/-- Client objects of a client (R27). -/
def clientObject (n k : Nat) (r : Row) : Bool := r.rdom == .client && (k / 256 == 0x7000 + n || k / 256 == 0x9040 + n)

/-- The transfers of a client's Leat jobs are given up. DESIGN CHOICE: its reset takes the packets they sent as delivered, so
that its records are written before its ring is gone (R364; log entry 29). -/
def State.dropXfersOf (s : State) (n : Nat) : State :=
  (s.leat.xfers.filter (fun x => (s.job x.job).any (fun j => j.client == n))).foldl (fun s x => s.dropXfer x.id) s

/-- A reset of client n. -/
def State.clientReset (s : State) (n : Nat) : State :=
  let s := (List.range 4).foldl (fun (s : State) p => s.dropLayers n p) s
  let owned := (List.range 128).filter (fun q => s.get (Od.Q_OWNER q) == n)
  let s := (s.dropXfersOf n).abortJobs (fun j => j.client == n) none
  let s := (s.drainQueues owned true).dropHeld n
  let s := owned.foldl (fun (s : State) q => s.set (Od.Q_ENABLE q) 0) s
  let s := s.dropSlots n
  let s := (s.clearObjects (clientObject n)).dropCache n
  s.post 1 2 0x2600 n 0

/-- A write of CLIENT_RESET (R107). -/
def State.wrClientReset (s : State) (v : Nat) : WRes :=
  if v == 0 || v > 63 then .no s Ab.RANGE else .ok (s.clientReset v)

/-! ## The Governor (R351 to R353) -/

/-- A long operation ends with BUSY, and what it had begun is given up (R353 step 4). -/
def State.cancelOp (s : State) (o : LongOp) : State :=
  let s := match o.kind with
    | .wheelLoad => { s with wheel := { s.wheel with image := none, ready := none } }
    | .repartition => { s with mem := { s.mem with staged := none } }
    | .linkTrain p => if s.get (Od.LINK_STATE p) == 1 then s.set (Od.LINK_STATE p) 0 else s
    | .casForm => { s.set Od.CAS_STATE s.formBack with
        leat := { s.leat with formAt := none, formTick := none, replies := [] } }
    | .memTrain => s.trainCut
    | .store | .erase | .bootLoad | .fwLoad | .selftest _ => s
  s.finishOp o.slot.val Ab.BUSY

/-- The control core restarts (R353 step 5); the strap balls keep the GPIO settings in force (R77). -/
def State.restartCore (s : State) : State :=
  let s := if s.running then
      { s with boot := { s.boot with padDir := s.get Od.GPIO_DIR, padOut := s.get Od.GPIO_OUT,
                                     padPull := s.get Od.GPIO_PULL } }
    else s
  match s.boot.everRan, s.boot.retained with
  | true, some image =>
    { s.set Od.BOOT_STATE 2 with boot := { s.boot with phase := .rom } }.beginVerify image .retained none
  | _, _ =>
    let s := { s with boot := { s.boot with verifying := none, restart := s.bootSrc == 0 } }
    s.set Od.BOOT_STATE (if s.bootSrc == 0 then 0 else 1)

/-- The Governor's count starts again. -/
def State.governorRestart (s : State) : State := { s with watch := { s.watch with govAt := s.now, govTicks := 0 } }

/-- The Governor expires. -/
def State.governorExpire (s : State) : State :=
  let e := s.get Od.EVT_NEXT
  let s := (s.post 0 1 0xB000 6 0).notifyDest 3 Ab.OK e
  let s := ((s.inc Od.GOV_EXPIRIES).set Od.GOV_HOLD 1).irq 3
  let s := ((s.engineReset 6).engineReset 2).engineReset 3
  let s := s.ops.foldl State.cancelOp s
  s.restartCore.governorRestart

/-- The window of the Governor is open (R351). -/
def State.governorOpen (s : State) : Bool :=
  if s.get Od.GOV_STATE == 1 then s.watch.govTicks ≥ ceilDiv (s.get Od.GOV_WIN * s.get Od.GOV_TICKS) 8
  else 8 * (s.now - s.watch.govAt) ≥ s.get Od.GOV_WIN * s.get Od.GOV_BOOT_MS * 1000000

/-- The Governor's period has ended without a valid service. -/
def State.governorDue (s : State) : Bool :=
  s.watch.gov && s.alive &&
    (if s.get Od.GOV_STATE == 1 then s.watch.govTicks ≥ s.get Od.GOV_TICKS
     else s.now ≥ s.watch.govAt + s.get Od.GOV_BOOT_MS * 1000000)

/-- A write of the firmware to GOV_KEY (R352). -/
def State.wrGovKey (s : State) (via : Path) (v : Nat) : WRes :=
  if via != .fw then .no s Ab.AUTH
  else if v == 0x4D11 && s.governorOpen then .ok (s.governorRestart.set Od.GOV_LAST_TS s.ts)
  else .ok (((s.inc Od.GOV_EARLY).post 0 2 0xB000 6 v).governorExpire)

/-! ## The Scarecrow (R354 to R356) -/

/-- The Scarecrow runs. -/
def State.scareRuns (s : State) : Bool := s.on Od.SCARE_EN && s.get Od.BOOT_STATE == 3

/-- A period of the Scarecrow starts; a new `SCARE_PERIOD_MS` takes effect. -/
def State.scareStart (s : State) : State :=
  { s with watch := { s.watch with scareAt := s.now, scareMs := s.get Od.SCARE_PERIOD_MS } }

/-- The template that a job names; a slot not read is read now. -/
def State.jobTemplate (s : State) (j : Job) : Nat := slotTemplate (s.readSlot j).2.1.slot

/-- Best-effort jobs of client 0 that a flush ends: not those of display and control queues. -/
def State.flushed (s : State) (j : Job) : Bool :=
  let e := engineOf j.id.q.val
  j.client == 0 && e != 4 && e != 6 && s.jobTemplate j == 0xFFFF

/-- A serving step of client 0 ends at the flush: its jobs with rows are aborted and leave their sequences as they were, the
others end as decided, and the session stays enabled (R240, R356). -/
def State.flushStep (s : State) (k : Nat) : State :=
  match s.stepRun k with
  | none => s
  | some r =>
    if s.svClient k != 0 then s else
    let rows := r.jobs.filter (fun a => a.verdict == .row || a.verdict.isLost)
    (rows.foldl (fun s a => s.abortJob a.job none) s).endStep k r (.bad 0 0)

/-- The flush of client 0 at a second expiry. -/
def State.flushClient0 (s : State) : State :=
  let s := (List.range 8).foldl State.flushStep s
  ((s.abortJobs s.flushed none).pruneXfers).drainQueues (List.range 128) false

/-- An expiry of the Scarecrow, first or second by `SCARE_STAGE`. -/
def State.scareExpire (s : State) : State :=
  let e := s.get Od.EVT_NEXT
  let s := s.inc Od.SCARE_EXPIRIES
  if s.get Od.SCARE_STAGE == 0 then
    (((((s.post 0 3 0xB010 0 0).notifyDest 4 Ab.OK e).msix 0 0).irq 0).set Od.SCARE_STAGE 1).scareStart
  else
    let s := (s.post 0 4 0xB010 0 0).notifyDest 4 Ab.OK e
    let s := (rangeFrom 1 63).foldl (fun (s : State) n => s.clientReset n) s
    (s.flushClient0.set Od.SCARE_STAGE 0).scareStart

/-- The window of the Scarecrow is open. -/
def State.scareOpen (s : State) : Bool :=
  8 * (s.now - s.watch.scareAt) ≥ s.get Od.SCARE_WIN * s.watch.scareMs * 1000000

/-- A write of SCARE_KEY. -/
def State.wrScareKey (s : State) (v : Nat) : WRes :=
  if v != 0x5EED then ⟨if s.scareRuns then s.scareExpire else s, Ab.RANGE, 0⟩
  else if !s.on Od.SCARE_EN then .ok (s.set Od.SCARE_EN 1).scareStart
  else if !s.scareRuns then .ok s
  else if s.scareOpen then .ok (s.set Od.SCARE_STAGE 0).scareStart
  else .ok s.scareExpire

/-- A write that differs from a locked object's value (R58). -/
def State.lockViolation (s : State) (key : Nat) : WRes :=
  ⟨(s.inc Od.LOCK_VIOL).post 7 1 (key / 256) 0 key, Ab.LOCKED, 0⟩

/-- A write of SCARE_DISABLE (R355). -/
def State.wrScareDisable (s : State) (v : Nat) : WRes :=
  if s.on Od.SCARE_LOCK then s.lockViolation Od.SCARE_DISABLE
  else if v == 0x3A7C then .ok { s with watch := { s.watch with scareArm := some s.now } }
  else if v == 0xC5B2 && (match s.watch.scareArm with
      | some t => s.now ≤ t + 1000000
      | none => false) then
    .ok (if s.on Od.SCARE_EN then (s.set Od.SCARE_EN 0).post 0 5 0xB010 0 0 else s)
  else .no s Ab.RANGE

/-- SCARE_LOCK is set (R355). -/
def State.wrScareLock (s : State) (v : Nat) : State :=
  let s := s.set Od.SCARE_LOCK v
  if v == 1 && !s.on Od.SCARE_EN then (s.set Od.SCARE_EN 1).scareStart else s

/-! ## Commands -/

/-- `FUNCTION_LEVEL_RESET` (R367). -/
def execFunctionLevelReset (dt : Nat) (fn : Fin 64) (s : State) : Res :=
  let s := s.advance dt
  .next (if s.boot.pcieUp then s.clientReset fn.val else s)

/-- `GOVERNOR_EXPIRY` (R351, R353). -/
def execGovernorExpiry (dt : Nat) (s : State) : Res :=
  let s := s.advance dt
  .next (if s.governorDue then s.governorExpire else s)

/-- `SCARECROW_EXPIRY` (R354, R356). -/
def execScarecrowExpiry (dt : Nat) (s : State) : Res :=
  let s := s.advance dt
  .next (if s.scareRuns && s.now ≥ s.watch.scareAt + s.watch.scareMs * 1000000 then s.scareExpire else s)

end Sys2Proof.Machine
end

