-- ==== Sys2Proof/Machine/Tap.lean ====
section
/-! DEFINITION. The test port (R370 to R377): each command is one instruction's Update-IR and the Capture-DR, shift and
Update-DR that follow it. -/

namespace Sys2Proof.Machine

/-! Instruction codes of the table in R371. -/
namespace Ir
def EXTEST : Nat := 0x00
def SAMPLE : Nat := 0x01
def IDCODE : Nat := 0x02
def CLAMP : Nat := 0x03
def HIGHZ : Nat := 0x04
def EXTEST_PULSE : Nat := 0x08
def EXTEST_TRAIN : Nat := 0x09
def STRAP_READ : Nat := 0x10
def BAND_CRC : Nat := 0x11
def OUTCHK_LOOP : Nat := 0x12
def BYPASS : Nat := 0x1F
end Ir

/-- The instruction takes the balls (R371). -/
def takesBalls (ir : Nat) : Bool := [Ir.EXTEST, Ir.CLAMP, Ir.HIGHZ, Ir.EXTEST_PULSE, Ir.EXTEST_TRAIN].contains ir

/-- An instruction comes into force at its Update-IR (R372, R377): the device is held as by PORST_N low while the balls
are taken, and giving them back counts as T_B where PORST_N is high. -/
def State.updateIr (s : State) (ir : Nat) (b : Board) : Res :=
  let fresh := s.get Od.BSCAN_IR != ir
  let s := s.set Od.BSCAN_IR ir
  let s := if ir == Ir.OUTCHK_LOOP && fresh then { s with tap := { s.tap with loopSeen := false } } else s
  if takesBalls ir then
    .next (if s.tap.taken then s
      else { s.powerOnReset with tap := { s.tap with taken := true } })
  else if !s.tap.taken then .next s
  else
    let s := { s with tap := { s.tap with taken := false } }
    if !s.boot.porst then .next s
    else if offLimits b then .fault .boardViolatesR85
    else .next (s.tB0 b)

/-- A data register is captured and shifted out (R370). -/
def State.capture (s : State) (width val : Nat) : State :=
  { s with tap := { s.tap with captured := val } }.emit (.tdo width val)

/-- Width of the boundary register (R371, R373). -/
def boundaryCells : Nat := 230

/-- Capture-DR and Update-DR of the boundary register (R371, R373). -/
def State.scanBoundary (s : State) (t : TapIn) : State :=
  let s := s.capture boundaryCells (t.balls % 2 ^ boundaryCells)
  { s with tap := { s.tap with boundary := t.shiftIn % 2 ^ boundaryCells, update := t.shiftIn % 2 ^ boundaryCells } }

/-- A capture through a display port's test receivers makes the frame in progress unchecked (R329, R374). -/
def State.receiversUsed (s : State) : State :=
  (List.range 4).foldl (fun (s : State) p =>
    if s.framing p && (portOfIf (s.get (Od.PIPE_IF p))).isSome then
      s.putPipe p { s.pipe p with unchecked := true } else s) s

/-- The register of STRAP_READ (R375). -/
def State.strapReadVal (s : State) : Nat :=
  if !s.boot.latched then 0
  else s.get Od.STRAP_RAW + (if s.boot.refclkOk then 2 ^ 16 else 0) + 2 ^ 17

/-- The register of BAND_CRC for the selected pipe (R376). -/
def State.bandCrcVal (s : State) : Nat :=
  let p := s.tap.pipe
  if !s.on (Od.MR_EN p) || !s.domOn 9 then 0
  else match (s.pipe p).seen with
    | none => 0
    | some b => (b.tick % 2 ^ 22) * 2 ^ 42 + 2 ^ 41 + (if b.fallback then 2 ^ 40 else 0) + (b.band % 2 ^ 8) * 2 ^ 32 +
        b.crc % 2 ^ 32

/-- The enabled pipe that drives a port (R377). -/
def State.pipeOfPort (s : State) (port : Nat) : Option Nat :=
  (List.range 4).find? (fun p => s.pipeOn p && portOfIf (s.get (Od.PIPE_IF p)) == some port)

/-- The register of OUTCHK_LOOP for the selected port (R377). -/
def State.outchkLoopVal (s : State) : Nat :=
  match s.pipeOfPort s.tap.port with
  | none => 0
  | some p =>
    match (s.pipe p).compared with
    | none => 0
    | some c =>
      if !s.tap.loopSeen then 0
      else (if c.same then 2 ^ 81 else 0) + 2 ^ 80 + (c.frame % 2 ^ 16) * 2 ^ 64 + (c.pin % 2 ^ 32) * 2 ^ 32 +
        c.pipe % 2 ^ 32

/-- The data register of the instruction in force. -/
def State.scanDr (s : State) (ir : Nat) (t : TapIn) : State :=
  if ir == Ir.EXTEST || ir == Ir.EXTEST_PULSE || ir == Ir.EXTEST_TRAIN then s.scanBoundary t
  else if ir == Ir.SAMPLE then s.receiversUsed.scanBoundary t
  else if ir == Ir.IDCODE then s.capture 32 0x10740ABD
  else if ir == Ir.STRAP_READ then s.capture 32 s.strapReadVal
  else if ir == Ir.BAND_CRC then
    let s := s.capture 64 s.bandCrcVal
    { s with tap := { s.tap with pipe := t.shiftIn % 4 } }
  else if ir == Ir.OUTCHK_LOOP then
    let s := s.capture 96 s.outchkLoopVal
    let port := t.shiftIn % 4
    { s with tap := { s.tap with port := port, loopSeen := s.tap.loopSeen && port == s.tap.port } }
  else s.capture 1 0

/-- One instruction of the test port: Capture-IR shifts out 0b00001 (R371), then the data register; boundary scan works whenever the supplies are good (R85). -/
def State.tapOp (s : State) (ir : Nat) (t : TapIn) : Res :=
  if s.boot.phase == .unpowered then .next s
  else match s.updateIr ir t.board with
    | .next s => .next ((s.emit (.tdo 5 1)).scanDr ir t)
    | .fault f => .fault f
    | .refused r => .refused r

/-- Test-Logic-Reset (R370, R372, R376): IDCODE is in force and pipe 0 is selected. -/
def State.tapResetOp (s : State) (t : TapIn) : Res :=
  if s.boot.phase == .unpowered then .next s
  else
    let s := { s with tap := { s.tap with pipe := 0, port := 0, loopSeen := false } }
    s.updateIr Ir.IDCODE t.board

/-! ## Commands -/

/-- `TAP_RESET` (R370). -/
def execTapReset (dt : Nat) (t : TapIn) (s : State) : Res := (s.advance dt).tapResetOp t

/-- `EXTEST` (R371, R372). -/
def execExtest (dt : Nat) (t : TapIn) (s : State) : Res := (s.advance dt).tapOp Ir.EXTEST t

/-- `SAMPLE_PRELOAD` (R371). -/
def execSamplePreload (dt : Nat) (t : TapIn) (s : State) : Res := (s.advance dt).tapOp Ir.SAMPLE t

/-- `IDCODE` (R371). -/
def execIdcode (dt : Nat) (t : TapIn) (s : State) : Res := (s.advance dt).tapOp Ir.IDCODE t

/-- `CLAMP` (R371, R372). -/
def execClamp (dt : Nat) (t : TapIn) (s : State) : Res := (s.advance dt).tapOp Ir.CLAMP t

/-- `HIGHZ` (R371, R372). -/
def execHighz (dt : Nat) (t : TapIn) (s : State) : Res := (s.advance dt).tapOp Ir.HIGHZ t

/-- `EXTEST_PULSE` (R374). -/
def execExtestPulse (dt : Nat) (t : TapIn) (s : State) : Res := (s.advance dt).tapOp Ir.EXTEST_PULSE t

/-- `EXTEST_TRAIN` (R374). -/
def execExtestTrain (dt : Nat) (t : TapIn) (s : State) : Res := (s.advance dt).tapOp Ir.EXTEST_TRAIN t

/-- `STRAP_READ` (R375). -/
def execStrapRead (dt : Nat) (t : TapIn) (s : State) : Res := (s.advance dt).tapOp Ir.STRAP_READ t

/-- `BAND_CRC` (R376). -/
def execBandCrc (dt : Nat) (t : TapIn) (s : State) : Res := (s.advance dt).tapOp Ir.BAND_CRC t

/-- `OUTCHK_LOOP` (R377). -/
def execOutchkLoop (dt : Nat) (t : TapIn) (s : State) : Res := (s.advance dt).tapOp Ir.OUTCHK_LOOP t

/-- `BYPASS` (R371). -/
def execBypass (dt : Nat) (t : TapIn) (s : State) : Res := (s.advance dt).tapOp Ir.BYPASS t

end Sys2Proof.Machine
end

