-- ==== Sys2Proof/Machine/LongOps.lean ====
section
/-! DEFINITION. Configuration store and erase, firmware load, self-test, RELEASE, and the completion of a long
operation (R50 to R53, R60, R91, R378 to R380, R384). -/

namespace Sys2Proof.Machine

/-! ## Writes that start an operation -/

/-- A write of STORE (R60). -/
def State.wrStore (s : State) (via : Path) : WRes :=
  if s.opRunning .store then .no s Ab.BUSY else .start s .store via Od.STORE id

/-- A write of ERASE (R60). -/
def State.wrErase (s : State) (via : Path) : WRes :=
  if s.opRunning .erase then .no s Ab.BUSY else .start s .erase via Od.ERASE id

/-- The copy of FW_IMAGE is under verification for the slot that the operation took. -/
def State.verifyCopy (s : State) (src : ImageSource) (h : Nat) : State :=
  s.beginVerify (s.getDom Od.FW_IMAGE) src (some (handleSlot h))

/-- A write of FW_LOAD (R91). -/
def State.wrFwLoad (s : State) (via : Path) : WRes :=
  if s.opRunning .fwLoad || s.on Od.TICK_EN || s.get Od.BOOT_STATE != 3 then .no s Ab.BUSY
  else
    let r := WRes.start s .fwLoad via Od.FW_LOAD id
    if r.code == Ab.OK then { r with st := r.st.verifyCopy .fwLoad r.handle } else r

/-- A transfer to FW_IMAGE has completed while `BOOT_STATE` reads 1: the load starts by itself (R87). -/
def State.bootLoad (s : State) (via : Path) : State :=
  let r := WRes.start s .bootLoad via Od.FW_IMAGE id
  if r.code == Ab.OK then (r.st.verifyCopy .transfer r.handle).set Od.BOOT_STATE 2 else s

/-- A write of SELFTEST (R378). -/
def State.wrSelftest (s : State) (via : Path) : WRes :=
  let sel := s.get Od.SELFTEST_SEL
  if sel == 0 then .no s Ab.RANGE
  else if s.selftesting || s.on Od.TICK_EN || (List.range 4).any s.pipeOn || s.jobRunning ||
      (bitOf sel 2 && (List.range 128).any (fun q => s.on (Od.Q_ENABLE q))) then .no s Ab.BUSY
  else .start s (.selftest sel) via Od.SELFTEST id

/-- A write of RELEASE of a slot (R384). -/
def State.wrRelease (s : State) (slot v : Nat) : WRes :=
  if bitsOf v 24 8 != 0 || bitsOf v 0 8 != slot then .no s Ab.RANGE
  else if bitsOf v 8 16 != s.gen slot then .no s Ab.HANDLE_STALE
  else if s.get (Od.STATE slot) == 1 then .no s Ab.BUSY
  else .ok (s.set (Od.STATE slot) 0)

/-! ## Completion -/

/-- What a self-test finds and leaves (R379 to R381). -/
def State.selftestDone (s : State) (sel : Nat) (r : OpResult) : State :=
  let mp := bitOf sel 0 || bitOf sel 1
  let mpFail := if mp then r.mpFail.toNat else 0
  let dramFail := if bitOf sel 2 then r.dramFail.toNat else 0
  let failed := mpFail != 0 || dramFail != 0
  let s := if bitOf sel 0 then { s with mem := { s.mem with millpond := [], badMill := [] } } else s
  let s := if bitOf sel 1 then { s with mem := { s.mem with metaMill := [] } } else s
  let s := if bitOf sel 2 then { s with mem := { s.mem with dram := [], metaDram := [], badDram := [] } } else s
  let s := s.when mp (·.set Od.BIST_MP_FAIL mpFail)
  let s := s.when (bitOf sel 2) (·.set Od.BIST_DRAM_FAIL dramFail)
  let s := (s.set Od.BIST_FIRST_ADDR (if failed then r.firstAddr else 0)).inc Od.BIST_RUNS
  s.when failed (·.post 2 1 0xA030 0 (s.get Od.BIST_FIRST_ADDR))

/-- The effect of a long operation's end and its result. Operations whose end is a command of its own answer none. -/
def State.opEffect (s : State) (k : OpKind) (r : OpResult) : Option (State × Nat) :=
  match k with
  | .store =>
    if r.norResponds then some ({ s with boot := { s.boot with store := some s.storeImage } }, Ab.OK)
    else some (s, Ab.NO_STORE)
  | .erase =>
    if r.norResponds then some ({ s with boot := { s.boot with store := none } }, Ab.OK)
    else some (s, Ab.NO_STORE)
  | .memTrain => some (s.trainDone, Ab.OK)
  | .linkTrain p => some (s.linkTrainDone p r)
  | .selftest sel => some (s.selftestDone sel r, Ab.OK)
  | .bootLoad => none
  | .fwLoad => none
  | .wheelLoad => none
  | .repartition => none
  | .casForm => none

/-- The operation of a slot completes. -/
def State.opDone (s : State) (slot : Nat) (r : OpResult) : State :=
  match s.ops.find? (fun o => o.slot.val == slot) with
  | none => s
  | some o =>
    match s.opEffect o.kind r with
    | none => s
    | some (s, code) => s.finishOp slot code

/-! ## Commands -/

/-- `LONG_OPERATION_DONE` (R53). -/
def execLongOperationDone (dt : Nat) (slot : Fin 256) (r : OpResult) (s : State) : Res :=
  .next ((s.advance dt).opDone slot.val r)

end Sys2Proof.Machine
end

