-- ==== Sys2Proof/Machine/DictCore.lean ====
section
/-! DEFINITION. The dictionary core (R23 to R31, R38 to R40, R49, R50, R57, R58): the checks of every access in their
order, what each object reads, and what a write of each object does. -/

namespace Sys2Proof.Machine

/-! ## Existence, privileges, domain (R23 steps 1 to 3) -/

/-- The row of sub-index 00 (R23). -/
def rowZero : Row := ⟨0, 0, .u8, .ro, 0, .never, .all⟩

/-- The row an access names, or NO_OBJECT or NO_SUB. -/
def lookup (idx sub : Nat) : Except Nat Row :=
  if (rowsAt idx).isEmpty then .error Ab.NO_OBJECT
  else if sub == 0 then .ok rowZero
  else match rowOf idx sub with
    | some r => .ok r
    | none => .error Ab.NO_SUB

/-- What a client reaches (R49, R134, R157). -/
def State.clientMay (s : State) (fn idx sub : Nat) (write : Bool) : Bool :=
  fn == 0 || idx == 0x1000 || (idx == 0x2100 && !write) ||
    (0x4000 ≤ idx && idx < 0x4080 && s.get (Od.Q_OWNER (idx - 0x4000)) == fn && !(write && sub == 1)) ||
    (idx == 0x7000 + fn && (!write || [1, 2, 3, 5].contains sub))

/-- Provisioned key slots (R61). -/
def State.keyPresent (s : State) : Nat :=
  (List.range 8).foldl (fun v i => if (s.getDom (Od.HMAC_KEY i)).isEmpty then v else v + 2 ^ i) 0

/-- A BLOCK_WRITE that needs no session (R40). -/
def State.noSession (s : State) (key : Nat) : Bool :=
  key == Od.FW_IMAGE || (key == Od.HMAC_KEY 0 && s.keyPresent == 0)

/-- The boot source refuses an image by this path while `BOOT_STATE` reads 1 (R87). -/
def State.imagePathRefused (s : State) (via : Path) : Bool :=
  s.get Od.BOOT_STATE == 1 && (match via with
    | .bap _ _ _ => s.bootSrc == 1
    | .pcie _ => !s.strapPcie
    | .fw => false)

/-- The privileges and session rules of an access (R40, R49, R87, R352). -/
def State.mayAccess (s : State) (via : Path) (key : Nat) (write block : Bool) : Bool :=
  if write && key == Od.GOV_KEY && via != .fw then false
  else if write && block && key == Od.FW_IMAGE && s.imagePathRefused via then false
  else match via with
    | .bap _ _ auth => !write || auth || (block && s.noSession key)
    | .pcie fn => s.clientMay fn.val (key / 256) (key % 256) write
    | .fw => true

/-- Steps 1 to 3 of R23. -/
def State.locate (s : State) (via : Path) (idx sub : Nat) (write block : Bool) : Except Nat Row :=
  match lookup idx sub with
  | .error c => .error c
  | .ok r =>
    if !s.mayAccess via (idx * 256 + sub) write block then .error Ab.AUTH
    else if s.domCode (domainOf idx sub) != Ab.OK then .error (s.domCode (domainOf idx sub))
    else .ok r

/-! ## Types, sizes and ranges (R24, R25) -/

/-- Size in bytes of a type code; 0 for STR, DOM and unlisted codes. -/
def codeSize (ty : Nat) : Nat :=
  if ty == 1 || ty == 2 then 1 else if ty == 3 then 2 else if ty == 4 || ty == 6 || ty == 7 then 4
  else if ty == 5 then 8 else 0

/-- The value as the object takes it: reserved bits are ignored (R6). -/
def Rng.filter (r : Rng) (v : Nat) : Nat :=
  match r with
  | .bits m => v &&& m
  | _ => v

/-- The value lies in the range of its row. -/
def Rng.ok (r : Rng) (v : Nat) : Bool :=
  match r with
  | .all => true
  | .upTo lo hi => lo ≤ v && v ≤ hi
  | .upToOr lo hi o => (lo ≤ v && v ≤ hi) || v == o
  | .oneOf l => l.contains v
  | .bits _ => true
  | .mult m => v % m == 0
  | .multBelow m b => v % m == 0 && v < b
  | .pow2 lo hi => isPow2Between lo hi v
  | .f32Pos => 0 < v && v < 0x7F800000
  | .f32Unit => 0 < v && v < 0x3F800000

/-- Range conditions that involve another object (R157, R330). -/
def State.rangeOk (s : State) (key v : Nat) : Bool :=
  let idx := key / 256
  let sub := key % 256
  if 0x7000 ≤ idx && idx < 0x7040 then
    let n := idx - 0x7000
    if sub == 8 then v + s.get (Od.CL_SLUICE_COUNT n) ≤ 256
    else if sub == 9 then s.get (Od.CL_SLUICE_BASE n) + v ≤ 256
    else if sub == 0xA then v + s.get (Od.CL_FENCE_COUNT n) ≤ 1024
    else if sub == 0xB then s.get (Od.CL_FENCE_BASE n) + v ≤ 1024
    else true
  else if 0x6000 ≤ idx && idx < 0x6004 then
    let p := idx - 0x6000
    if sub == 4 then s.get (Od.PIPE_IF p) != 0
    else if sub == 7 && v == 3 then s.get (Od.DSI_PHY p) == 1
    else true
  else true

/-- Steps 4 to 6 of R23 for a write of a value. -/
def State.valueCode (s : State) (r : Row) (key ty size v : Nat) : Nat :=
  if r.acc == .ro || r.acc == .rc then Ab.READ_ONLY
  else if ty != r.ty.code || r.ty == .dom then Ab.TYPE
  else if size != r.ty.size || v ≥ 2 ^ (8 * r.ty.size) || (r.ty == .bool && v > 1) ||
      !r.rng.ok (r.rng.filter v) || !s.rangeOk key (r.rng.filter v) then Ab.RANGE
  else Ab.OK

/-- The code of steps 1 to 6 of R23 for a write of a value. -/
def State.writeCode (s : State) (via : Path) (idx sub ty size v : Nat) : Nat :=
  match s.locate via idx sub true false with
  | .error c => c
  | .ok r => s.valueCode r (idx * 256 + sub) ty size v

/-! ## Locks (R57, R58) -/

/-- The object is locked: a WO1 object once written, an RWL object once `CFG_LOCK` reads 1. -/
def State.locked (s : State) (r : Row) (key : Nat) : Bool :=
  (r.acc == .wo1 && s.written.contains key) || (r.acc == .rwl && s.on Od.CFG_LOCK)

/-- A WO1 object has been written. -/
def State.markWritten (s : State) (r : Row) (key : Nat) : State :=
  if r.acc == .wo1 && !s.written.contains key then { s with written := key :: s.written } else s

/-! ## What a write does (R23 step 8 and the objects' own rules) -/

/-- A command object starts a long operation (R50). -/
def isCommand (key : Nat) : Bool :=
  [Od.STORE, Od.ERASE, Od.WHEEL_LOAD, Od.FW_LOAD, Od.CAS_FORM, Od.MEM_TRAIN, Od.REPARTITION, Od.SELFTEST].contains key ||
    (List.range 4).any (fun p => key == Od.LINK_TRAIN p)

/-- Command objects are refused from a Governor expiry until `BOOT_STATE` reads 3 (R353). -/
def State.commandsHeld (s : State) : Bool := s.on Od.GOV_HOLD && s.get Od.BOOT_STATE != 3

/-- A plain write, refused with BUSY under a condition. -/
def State.wrUnless (s : State) (busy : Bool) (k v : Nat) : WRes := if busy then .no s Ab.BUSY else .ok (s.set k v)

/-- Writes of the queue objects (R135, R136). -/
def State.wrQueueObj (s : State) (q sub k v : Nat) : WRes :=
  if sub == 2 then s.wrQEnable q v
  else if sub == 1 || sub == 3 || sub == 4 then s.wrQFixed q k v
  else .ok (s.set k v)

/-- Writes of the ingest and CSI objects (R167, R168). -/
def State.wrIngestObj (s : State) (i sub k v : Nat) : WRes :=
  if sub == 2 then s.wrIsEn i v
  else if sub == 0x30 then .ok (s.wrCsiEn i v)
  else if sub == 0x31 then s.wrCsiLanes i v
  else s.wrUnless (s.on (Od.IS_EN i)) k v

/-- Writes of the pipe objects (R309, R330). -/
def State.wrPipeObj (s : State) (p sub k v : Nat) (via : Path) : WRes :=
  if sub == 2 then s.wrPipeEn p v
  else if sub == 0x15 then s.wrLinkTrain p via
  else if s.on (Od.PIPE_EN p) && (sub ≤ 0x13 || (0x40 ≤ sub && sub ≤ 0x46)) then .no s Ab.BUSY
  else if sub == 1 then s.wrPipeIf p v
  else if sub == 5 || sub == 6 || (9 ≤ sub && sub ≤ 0x12) then .ok (s.wrTiming p k v)
  else .ok (s.set k v)

/-- Writes of the vision stream objects (R296). -/
def State.wrVisionObj (s : State) (v sub k x : Nat) : WRes :=
  if 1 ≤ sub && sub ≤ 4 then
    if s.streamHeld v then .no s Ab.BUSY else .ok ((s.set k x).set (Od.VS_REF_VALID v) 0)
  else .ok (s.set k x)

/-- Writes of the client objects (R151, R157). -/
def State.wrClientObj (s : State) (n sub k v : Nat) : WRes :=
  if sub == 1 || sub == 2 then s.wrCrFixed n k v
  else if sub == 3 then s.wrCrEn n v
  else if sub == 5 then s.wrCrHead n v
  else .ok (s.set k v)

/-- Writes of the reset and boot objects (R108); `WARM_RESET` acts after it is answered (R106). -/
def State.wrResetObj (s : State) (sub v : Nat) (via : Path) : WRes :=
  if sub == 2 then s.wrEngineReset v
  else if sub == 3 then s.wrClientReset v
  else if sub == 0x11 then s.wrFwLoad via
  else .ok s

/-- Writes of the Scarecrow objects (R354, R355). -/
def State.wrScareObj (s : State) (sub k v : Nat) : WRes :=
  if sub == 2 then s.wrScareKey v
  else if sub == 4 then s.wrScareDisable v
  else if sub == 5 then .ok (s.wrScareLock v)
  else .ok (s.set k v)

/-- Writes of the tick objects (R16, R19, R21). -/
def State.wrTickObj (s : State) (sub k v : Nat) : WRes :=
  if sub == 1 then s.wrTickSrc v
  else if sub == 2 then s.wrTickEn v
  else if sub == 5 then .ok (s.wrGenPeriod v)
  else if sub == 0xB then .ok (s.wrTickOutEn v)
  else .ok (s.set k v)

/-- Writes of the cascade objects (R340, R341). -/
def State.wrCascadeObj (s : State) (sub k v : Nat) (via : Path) : WRes :=
  if sub == 5 then s.wrCasForm via else if sub == 6 then s.wrCasDissolve else .ok (s.set k v)

/-- Writes of the memory objects (R110, R111, R132). -/
def State.wrMemoryObj (s : State) (sub k v : Nat) (via : Path) : WRes :=
  if sub == 5 then s.wrMemTrain via else if sub == 6 then s.wrMemRate v else .ok (s.set k v)

/-- What an accepted value does at its object. -/
def State.writeEffect (s : State) (via : Path) (k v : Nat) : WRes :=
  let idx := k / 256
  let sub := k % 256
  if idx == 0x1010 then (if sub == 1 then s.wrStore via else s.wrErase via)
  -- R62: NODE_ID takes effect after the response
  else if k == Od.NODE_ID then .ok s
  else if 0x1200 ≤ idx && idx < 0x1300 then s.wrRelease (idx - 0x1200) v
  else if idx == 0x2100 then s.wrTickObj sub k v
  else if idx == 0x2200 then (if sub == 2 then s.wrWheelLoad via else s.wrWheelUnload)
  else if idx == 0x2300 then .ok (s.wrQPrio (sub - 1) v)
  else if idx == 0x2400 then s.wrPdReq (sub - 0x14) v
  else if idx == 0x2500 then s.wrPllReq (sub - 0x11) k v
  else if idx == 0x2600 then s.wrResetObj sub v via
  else if 0x3180 ≤ idx && idx < 0x3188 then
    (if sub == 1 then s.wrSvEnable (idx - 0x3180) v else s.wrUnless (s.on (Od.SV_ENABLE (idx - 0x3180))) k v)
  else if 0x3210 ≤ idx && idx < 0x3220 then s.wrVisionObj (idx - 0x3210) sub k v
  else if 0x3310 ≤ idx && idx < 0x3314 then s.wrStClear (idx - 0x3310) v
  else if 0x4000 ≤ idx && idx < 0x4080 then s.wrQueueObj (idx - 0x4000) sub k v
  else if 0x5000 ≤ idx && idx < 0x5010 then s.wrIngestObj (idx - 0x5000) sub k v
  else if 0x6000 ≤ idx && idx < 0x6004 then s.wrPipeObj (idx - 0x6000) sub k v via
  else if 0x7000 ≤ idx && idx < 0x7040 then s.wrClientObj (idx - 0x7000) sub k v
  else if idx == 0x8000 then s.wrCascadeObj sub k v via
  else if 0x8010 ≤ idx && idx < 0x8012 then s.wrLpEn (idx - 0x8010) v
  else if 0x8020 ≤ idx && idx < 0x8028 then
    if sub == 1 then .ok (s.wrSeamEn (idx - 0x8020) v)
    else s.wrUnless (2 ≤ sub && sub ≤ 6 && s.on (Od.SEAM_EN (idx - 0x8020))) k v
  else if idx == 0x9000 then s.wrMemoryObj sub k v via
  else if idx == 0x9008 then s.wrRepartition via
  else if 0x9040 ≤ idx && idx < 0x9080 then
    .ok (if sub == 3 then s.wrXlatInval (idx - 0x9040) v else s.wrXlat k (idx - 0x9040) v)
  else if k == Od.SELFTEST then s.wrSelftest via
  else if k == Od.GOV_KEY then s.wrGovKey via v
  else if idx == 0xB010 then s.wrScareObj sub k v
  else if idx == 0xA040 && (sub == 4 || sub == 5 || sub == 7) then .ok (s.keepPads.set k v)
  else .ok (s.set k v)

/-- A write that has passed the checks 1 to 6 of R23: the lock, then the object's own conditions. -/
def State.writeRow (s : State) (via : Path) (r : Row) (k v : Nat) : WRes :=
  let v := r.rng.filter v
  if s.locked r k then (if s.get k == v then .ok s else s.lockViolation k)
  else if isCommand k && s.commandsHeld then .no s Ab.BUSY
  else
    let w := s.writeEffect via k v
    if w.code == Ab.OK then { w with st := w.st.markWritten r k } else w

/-- A BAP request is counted: one refused with AUTH, or one executed (R40, R61; log entry 25). -/
def State.countBap (s : State) (via : Path) (code : Nat) : State :=
  match via with
  | .bap _ _ _ => (s.when (code == Ab.AUTH) (·.inc Od.AUTH_FAIL)).when (code == Ab.OK) (·.inc Od.BAP_RX_OK)
  | _ => s

/-- A write of an object with a value of a fixed size (R23, R25). -/
def State.dictWrite (s : State) (via : Path) (idx sub ty size v : Nat) : WRes :=
  match s.locate via idx sub true false with
  | .error c => .no s c
  | .ok r =>
    let k := idx * 256 + sub
    let c := s.valueCode r k ty size v
    if c != Ab.OK then .no s c else s.writeRow via r k v

/-- What happens once an accepted write has been answered (R43, R62, R106). -/
def State.afterWrite (s : State) (k v code : Nat) : State :=
  if code != Ab.OK then s
  else if k == Od.NODE_ID then
    if s.get Od.NODE_ID == v then s
    else { s.set Od.NODE_ID v with bap := { s.bap with sessions := [] } }
  else if k == Od.WARM_RESET then s.warmReset 2 .starting
  else s

/-! ## Reads (R23, R26) -/

/-- Levels at the GPIO balls at their latest sample, taken every 1 µs (R77): an output shows what it drives; an input
shows what the board drives, and where the board does not drive it, 0 through its pull-down (log entry 42). -/
def State.gpioLevels (s : State) : Nat :=
  let (dir, out, pull) := if s.padsMoved then s.boot.padWas else s.pads
  let all := 2 ^ 32 - 1
  let seen := Config.gpioIn s.padSample &&& (Config.gpioDriven s.padSample ||| clearN all pull)
  ((out &&& dir) ||| (clearN all dir &&& seen)) % 2 ^ 32

/-- Level at the HPD pin of a pipe's DP port (R80, R330): the outside gives it, as the last command showed it at this moment,
else at will (log entry 41). -/
def State.hpdLevel (s : State) (p : Nat) : Nat :=
  if s.get (Od.PIPE_IF p) < 3 then 0
  else if mget s.boot.hpdAt p == some s.now then s.get (Od.HPD p)
  else Config.hpdPin (s.get (Od.PIPE_IF p) / 5) s.now % 2

/-- A job runs on the Dibber (R230). -/
def State.dibberBusy (s : State) : Bool :=
  s.qs.jobs.any (fun j => j.phase == .started && j.unit == some .dibber)

/-- What an object reads: derived objects are computed, the others held. -/
def State.readVal (s : State) (k : Nat) : Nat :=
  let idx := k / 256
  let sub := k % 256
  if sub == 0 then highestSub idx
  else if k == Od.DEV_TS then s.ts
  else if k == Od.STORE_VALID then (if s.boot.store.isSome then 1 else 0)
  else if k == Od.KEY_PRESENT then s.keyPresent
  else if k == Od.RELOCK_BUCKETS then s.relockBuckets % 2 ^ 8
  else if k == Od.DRAM_USABLE then s.usable
  else if k == Od.GPIO_IN then s.gpioLevels
  else if 0x6000 ≤ idx && idx < 0x6004 && k == Od.HPD (idx - 0x6000) then s.hpdLevel (idx - 0x6000)
  else if k == Od.DIB_BUSY then (if s.dibberBusy then 1 else 0)
  else if 0x3310 ≤ idx && idx < 0x3314 && sub == 1 then s.stStateVal (idx - 0x3310)
  else if idx == 0x9001 && sub ≤ 4 then s.ltr (sub - 1)
  else if k == Od.SR_TIME_NS then s.srTime
  else if 0x4000 ≤ idx && idx < 0x4080 && sub == 0xA then s.queueState (idx - 0x4000)
  else if 0x6000 ≤ idx && idx < 0x6004 && sub == 4 && s.get (Od.PIPE_IF (idx - 0x6000)) == 0 then 0xFF
  else s.get k

/-- What a read answers: state, abort code, type code, size and value. -/
structure RRes where
  st : State
  code : Nat
  ty : Nat
  size : Nat
  val : Nat

def RRes.no (s : State) (code : Nat) : RRes := ⟨s, code, 0, 0, 0⟩

/-- Reads of the object are refused: WO, and WO1 key objects (R26). -/
def Row.writeOnly (r : Row) : Bool := r.acc == .wo || (r.acc == .wo1 && r.ty == .dom)

/-- Steps 1 to 5 of R23 for a read of a value. -/
def State.readCheck (s : State) (via : Path) (idx sub : Nat) : Except Nat Row :=
  match s.locate via idx sub false false with
  | .error c => .error c
  | .ok r =>
    if r.writeOnly then .error Ab.WRITE_ONLY
    else if r.ty == .dom then .error Ab.TYPE
    else .ok r

/-- A read of an object; an RC object is cleared in the same step (R26). -/
def State.dictRead (s : State) (via : Path) (idx sub : Nat) : RRes :=
  match s.readCheck via idx sub with
  | .error c => .no s c
  | .ok r =>
    let k := idx * 256 + sub
    let v := s.readVal k
    let s := s.when (r.acc == .rc) (·.set k r.dflt)
    ⟨s, Ab.OK, r.ty.code, r.ty.size, v⟩

/-! ## DOM objects (R24, R38, R39) -/

/-- The size of a DOM object as its row states it, and whether smaller contents are allowed. -/
def domSize (k : Nat) : Nat × Bool :=
  let idx := k / 256
  if idx == 0x1100 then (32, false)
  else if idx == 0x2200 then (16448, true)
  else if idx == 0x2600 then (0x800000, true)
  else if idx == 0x3000 then (48, false)
  else if idx == 0x2010 then (48, false)
  else if idx == 0xA000 then (32768, false)
  else (1024, false)

/-- The content that a read of a DOM object returns. -/
def State.domContent (s : State) (k : Nat) : List Byte :=
  if k == Od.EVT_LOG then s.eventLog
  else if k == Od.FW_KEY_HASH then padTo 48 (s.getDom k)
  else if (List.range 4).any (fun p => k == Od.PALETTE p) then padTo 1024 (s.getDom k)
  else s.getDom k

/-- The same source node or path (R38). -/
def samePath (a b : Path) : Bool :=
  match a, b with
  | .bap n _ _, .bap m _ _ => n == m
  | .pcie f, .pcie g => f == g
  | .fw, .fw => true
  | _, _ => false

/-- What a segment of a transfer does: state, abort code, NEXT. -/
structure BRes where
  st : State
  code : Nat
  next : Nat

def State.dropBlock (s : State) (k : Nat) : State := { s with bap := { s.bap with xfers := mdel s.bap.xfers k } }

/-- The whole content of a DOM object has arrived (R38, R58, R87). -/
def State.takeDom (s : State) (via : Path) (r : Row) (k : Nat) (data : List Byte) : BRes :=
  if s.locked r k then
    if s.domContent k == data then ⟨s.dropBlock k, Ab.OK, data.length⟩
    else
      let w := s.lockViolation k
      ⟨w.st.dropBlock k, w.code, 0⟩
  else
    let s := ((s.dropBlock k).setDom k data).markWritten r k
    ⟨if k == Od.FW_IMAGE && s.get Od.BOOT_STATE == 1 then s.bootLoad via else s, Ab.OK, data.length⟩

/-- One segment that has passed the checks 1 to 5 of R23. -/
def State.segment (s : State) (via : Path) (r : Row) (k off total : Nat) (data : List Byte) (maxSeg : Nat) : BRes :=
  let no := fun (c : Nat) => (⟨s, c, 0⟩ : BRes)
  let size := domSize k
  let x := mget s.bap.xfers k
  let foreign := match x with
    | some x => !samePath x.owner via
    | none => false
  if total == 0 || total > size.1 || (!size.2 && total != size.1) || data.isEmpty || data.length > maxSeg ||
      off + data.length > total then no Ab.RANGE
  else if foreign then no Ab.BUSY
  else if k == Od.FW_IMAGE && (s.get Od.BOOT_STATE == 0 || s.get Od.BOOT_STATE == 2) then no Ab.BUSY
  else
    let head : Option (List Byte) :=
      if off == 0 then some [] else match x with
        | some x => if x.data.length == off && x.total == total then some x.data else none
        | none => none
    match head with
    | none => no Ab.RANGE
    | some head =>
      let all := head ++ data
      if all.length == total then s.takeDom via r k all
      else
        let t : Xfer := { owner := via, total := total, data := all, last := s.now }
        ⟨{ s with bap := { s.bap with xfers := mset s.bap.xfers k t } }, Ab.OK, all.length⟩

/-- One segment of a block transfer to a DOM object (R38). -/
def State.blockWrite (s : State) (via : Path) (idx sub ty off total : Nat) (data : List Byte) (maxSeg : Nat) : BRes :=
  match s.locate via idx sub true true with
  | .error c => ⟨s, c, 0⟩
  | .ok r =>
    if r.acc == .ro || r.acc == .rc then ⟨s, Ab.READ_ONLY, 0⟩
    else if r.ty != .dom || ty != 9 then ⟨s, Ab.TYPE, 0⟩
    else s.segment via r (idx * 256 + sub) off total data maxSeg

/-- A block read of a DOM object (R39): the code, TOTAL and the data. -/
def State.blockRead (s : State) (via : Path) (idx sub off count : Nat) : Nat × Nat × List Byte :=
  match s.locate via idx sub false true with
  | .error c => (c, 0, [])
  | .ok r =>
    if r.writeOnly then (Ab.WRITE_ONLY, 0, [])
    else if r.ty != .dom then (Ab.TYPE, 0, [])
    else
      let b := s.domContent (idx * 256 + sub)
      (Ab.OK, b.length, slice b off count)

/-- A path on which accesses arrive (R81, R83). -/
def State.pathUp (s : State) (via : Path) : Bool :=
  match via with
  | .bap _ _ _ => s.netUp
  | .pcie _ => s.boot.pcieUp
  | .fw => s.alive

end Sys2Proof.Machine
end

