-- ==== Sys2Proof/Machine/Bap.lean ====
section
/-! DEFINITION. The Bymanth Access Protocol (R33 to R43): received frames, sequence numbers, sessions, block transfers,
DISCOVER, and the time limits of each. -/

namespace Sys2Proof.Machine

/-! ## Frames (R33, R34) -/

/-- Fields of a received frame. -/
structure BapReq where
  opcode : Nat
  seq : Nat
  dst : Nat
  src : Nat
  auth : Bool
  mac : Nat
  payload : List Byte
  /-- header and payload, what the tag covers first -/
  body : List Byte
  /-- 24 bytes when `auth`, else none -/
  trailer : List Byte
  deriving DecidableEq, Repr

/-- Request operations of R35. -/
def isRequestOp (op : Nat) : Bool := [0x01, 0x02, 0x03, 0x04, 0x20, 0x21, 0x30].contains op

/-- The frame is addressed to this device (R34). -/
def State.addressed (s : State) (f : BapFrame) : Bool :=
  (f.dstMac == s.get Od.MAC_ADDR || f.dstMac == broadcastMac) &&
    (fldBe f.bytes 4 1 == s.get Od.NODE_ID || fldBe f.bytes 4 1 == 0xFF)

/-- The frame is discarded (R34). -/
def discarded (f : BapFrame) : Bool :=
  let b0 := fldBe f.bytes 0 1
  let len := fldBe f.bytes 6 2
  let got := f.bytes.length - 8
  b0 / 16 != 1 || !isRequestOp (fldBe f.bytes 1 1) || len > 1200 || len > got || (bitOf b0 2 && got < len + 24) || bitOf b0 3

/-- The request that an accepted frame carries (R33, R42). -/
def requestOf (f : BapFrame) : BapReq :=
  let len := fldBe f.bytes 6 2
  let auth := bitOf (fldBe f.bytes 0 1) 2
  { opcode := fldBe f.bytes 1 1, seq := fldBe f.bytes 2 2, dst := fldBe f.bytes 4 1, src := fldBe f.bytes 5 1, auth := auth,
    mac := f.srcMac, payload := slice f.bytes 8 len, body := f.bytes.take (8 + len),
    trailer := if auth then slice f.bytes (8 + len) 24 else [] }

/-- A response frame (R33 to R35); under a session it carries the next COUNT, already taken (R42). -/
def State.response (s : State) (r : BapReq) (x : Option Session) (payload : List Byte) : List Byte :=
  let body := bapHeader true x.isSome r.opcode r.seq r.src (s.get Od.NODE_ID) payload.length ++ payload
  padFrame (match x with
    | some x => sealFrame x x.lastTx body
    | none => body)

/-! ## Frames that wait (R31, R35, R53) -/

/-- The frames of a node that may leave now, oldest first, and those that stay. -/
def leaving (node now : Nat) : Bool → List Waiting → List Waiting × List Waiting
  | _, [] => ([], [])
  | blocked, w :: rest =>
    if w.node == node && !blocked && w.frame.isSome && w.due ≤ now then
      let r := leaving node now false rest
      (w :: r.1, r.2)
    else
      let r := leaving node now (blocked || w.node == node) rest
      (r.1, w :: r.2)

/-- Send what may leave to a node, then let the writes that waited for their response take effect (R62, R106). -/
def State.flushNode (s : State) (node : Nat) : State :=
  let r := leaving node s.now false s.bap.waiting
  let s := { s with bap := { s.bap with waiting := r.2 } }
  let s := r.1.foldl (fun (s : State) w => s.emit (.frame w.mac (w.frame.getD []))) s
  r.1.foldl (fun (s : State) w => match w.after with
    | some (k, v) => s.afterWrite k v Ab.OK
    | none => s) s

/-- The response to the request now executed: it stands where the request was received (R31). -/
def State.fillWaiting (s : State) (node : Nat) (frame : List Byte) (after : Option (Nat × Nat)) : State :=
  { s with bap := { s.bap with waiting := s.bap.waiting.map (fun w =>
      if w.node == node && w.frame.isNone then { w with frame := some frame, after := after } else w) } }

/-- The delay of the answer to a DISCOVER addressed to every node, whatever that answer says (R35). -/
def State.discoverDelay (s : State) (r : BapReq) : Nat :=
  if r.opcode == 0x30 && r.dst == 0xFF then 2000000 * min 7 (s.get Od.NODE_ID) else 0

/-- A response that is complete at once leaves behind those owed before it, and after its own delay. -/
def State.answerBap (s : State) (r : BapReq) (frame : List Byte) : State :=
  let w : Waiting := { node := r.src, mac := r.mac, due := s.now + s.discoverDelay r, frame := some frame, after := none }
  { s with bap := { s.bap with waiting := s.bap.waiting ++ [w] } }.flushNode r.src

/-! ## Operations (R35) -/

/-- What a request does: the state, the abort code, the bytes after `ABORT`, and the write that follows the response. -/
structure BapRes where
  st : State
  code : Nat
  data : List Byte
  after : Option (Nat × Nat)

def BapRes.no (s : State) (code : Nat) : BapRes := ⟨s, code, [], none⟩

/-- The path of a request. -/
def BapReq.path (r : BapReq) : Path := .bap r.src r.mac r.auth

/-- READ (R35). -/
def State.bapRead (s : State) (r : BapReq) : BapRes :=
  if r.payload.length != 4 then .no s Ab.RANGE
  else
    let x := s.dictRead r.path (fldBe r.payload 0 2) (fldBe r.payload 2 1)
    ⟨x.st, x.code, [BitVec.ofNat 8 x.ty, 0] ++ toBe x.size x.val, none⟩

/-- WRITE (R35). -/
def State.bapWrite (s : State) (r : BapReq) : BapRes :=
  if r.payload.length < 4 then .no s Ab.RANGE
  else
    let idx := fldBe r.payload 0 2
    let sub := fldBe r.payload 2 1
    let k := idx * 256 + sub
    let value := r.payload.drop 4
    let w := s.dictWrite r.path idx sub (fldBe r.payload 3 1) value.length (be value)
    ⟨w.st, w.code, [0, 0] ++ (if isCommand k then toBe 4 w.handle else []), some (k, be value)⟩

/-- BLOCK_WRITE (R35, R38). -/
def State.bapBlockWrite (s : State) (r : BapReq) : BapRes :=
  if r.payload.length < 13 || r.payload.length > 1036 then .no s Ab.RANGE
  else
    let b := s.blockWrite r.path (fldBe r.payload 0 2) (fldBe r.payload 2 1) (fldBe r.payload 3 1) (fldBe r.payload 4 4)
      (fldBe r.payload 8 4) (r.payload.drop 12) 1024
    ⟨b.st, b.code, [0, 0] ++ toBe 4 b.next, none⟩

/-- BLOCK_READ (R35, R39). -/
def State.bapBlockRead (s : State) (r : BapReq) : BapRes :=
  if r.payload.length != 10 then .no s Ab.RANGE
  else
    let count := fldBe r.payload 8 2
    match s.blockRead r.path (fldBe r.payload 0 2) (fldBe r.payload 2 1) (fldBe r.payload 4 4) count with
    | (code, total, data) =>
      if code == Ab.OK && count > 1024 then .no s Ab.RANGE
      else ⟨s, code, toBe 4 total ++ data, none⟩

/-- A place for one more session: the node's previous one closes, then the one idle longest (R41). -/
def State.makeRoom (s : State) (node : Nat) : State :=
  let s := s.endSession node
  if s.bap.sessions.length < 8 then s
  else
    let idlest := s.bap.sessions.foldl (fun (b : Option Session) x => match b with
      | none => some x
      | some y => if x.lastValid < y.lastValid || (x.lastValid == y.lastValid && x.node < y.node) then some x else some y) none
    match idlest with
    | some x => s.endSession x.node
    | none => s

/-- SESSION_OPEN (R41). -/
def State.bapOpen (s : State) (r : BapReq) : BapRes :=
  if r.payload.length != 20 then .no s Ab.RANGE
  else
    let k := fldBe r.payload 0 1
    if k > 7 then .no s Ab.RANGE
    else
      let key := s.getDom (Od.HMAC_KEY k)
      if key.isEmpty then .no s Ab.AUTH
      else
        let nd := toBe 16 (Config.nonce s.fresh)
        let sk := hmacSha256 key ([0x42, 0x41, 0x50, 0x53] ++ slice r.payload 4 16 ++ nd)
        let x : Session := { node := r.src, keyId := k, sk := sk, lastRx := 0, lastTx := 0, lastValid := s.now }
        ⟨(s.spend.makeRoom r.src).putSession x, Ab.OK, nd, none⟩

/-- SESSION_CLOSE (R40, R43). -/
def State.bapClose (s : State) (r : BapReq) : BapRes :=
  if !r.payload.isEmpty then .no s Ab.RANGE
  else if !r.auth then .no s Ab.AUTH
  else ⟨s.endSession r.src, Ab.OK, [], none⟩

/-- DISCOVER (R35). -/
def State.bapDiscover (s : State) (r : BapReq) : BapRes :=
  if !r.payload.isEmpty then .no s Ab.RANGE
  else ⟨s, Ab.OK, toBe 4 (s.get Od.DEVICE_ID) ++ toBe 1 (s.get Od.STEPPING) ++ toBe 1 (s.get Od.NODE_ID), none⟩

/-- A request is executed. -/
def State.bapExec (s : State) (r : BapReq) : BapRes :=
  if r.opcode == 0x01 then s.bapRead r
  else if r.opcode == 0x02 then s.bapWrite r
  else if r.opcode == 0x03 then s.bapBlockWrite r
  else if r.opcode == 0x04 then s.bapBlockRead r
  else if r.opcode == 0x20 then s.bapOpen r
  else if r.opcode == 0x21 then s.bapClose r
  else s.bapDiscover r

/-! ## Sessions and duplicates (R37, R42) -/

/-- The session that accepts an authenticated request, with its counts moved on for the request and its response. -/
def State.sessionFor (s : State) (r : BapReq) : Option Session :=
  match s.session r.src with
  | none => none
  | some x =>
    let count := fldBe r.trailer 4 4
    if slice r.trailer 8 16 == bapTag x (r.body ++ r.trailer.take 8) && x.lastRx < count
    then some { x with lastRx := count, lastTx := x.lastTx + 1, lastValid := s.now }
    else none

/-- The kept request of a node is this one (R37). -/
def sameRequest (k : Kept) (r : BapReq) : Bool :=
  match k.request with
  | [] => false
  | _ => fldBe k.request 2 2 == r.seq && fldBe k.request 1 1 == r.opcode && slice k.request 8 (fldBe k.request 6 2) == r.payload

/-- The kept request carried the same trailer (R42). -/
def sameTrailer (k : Kept) (r : BapReq) : Bool := k.request.drop (8 + fldBe k.request 6 2) == r.trailer

/-- Execute a request that is no duplicate and answer it; `x` is the session that accepted it. -/
def State.bapRun (s : State) (r : BapReq) (x : Option Session) : State :=
  let s := match x with
    | some x => s.putSession x
    | none => s
  let due := s.now + s.discoverDelay r
  let w : Waiting := { node := r.src, mac := r.mac, due := due, frame := none, after := none }
  let s := { s with bap := { s.bap with waiting := s.bap.waiting ++ [w] } }
  let e := s.bapExec r
  let s := e.st.countBap r.path e.code
  let payload := toBe 2 e.code ++ (if e.code == Ab.OK then e.data else [])
  -- R42: the response to SESSION_OPEN carries no trailer
  let x := if r.opcode == 0x20 then none else x
  let frame := s.response r x payload
  let kept : Kept := { request := r.body ++ r.trailer, response := frame }
  let s := { s with bap := { s.bap with kept := mset s.bap.kept r.src kept } }
  (s.fillWaiting r.src frame (if e.code == Ab.OK then e.after else none)).flushNode r.src

/-- A request refused under R42: it is neither executed nor kept. -/
def State.bapRefuse (s : State) (r : BapReq) : State :=
  (s.inc Od.AUTH_FAIL).answerBap r (s.response r none (toBe 2 Ab.AUTH))

/-- A request that the device accepts (R37, R42). -/
def State.bapAccept (s : State) (r : BapReq) : State :=
  let dup := match mget s.bap.kept r.src with
    | some k => if sameRequest k r then some k else none
    | none => none
  match dup with
  | some k =>
    if !r.auth || sameTrailer k r then s.answerBap r k.response
    else match s.sessionFor r with
      | some x => (s.putSession { x with lastTx := x.lastTx - 1 }).answerBap r k.response
      | none => s.bapRefuse r
  | none =>
    if !r.auth then s.bapRun r none
    else match s.sessionFor r with
      | some x => s.bapRun r (some x)
      | none => s.bapRefuse r

/-- A frame reaches the field-network port (R34, R55). -/
def State.bapRx (s : State) (f : BapFrame) : State :=
  if !s.netUp || f.bytes.length < 8 || !s.addressed f then s
  else if discarded f then s.inc Od.BAP_DISCARD
  else
    let r := requestOf f
    let s := if r.src == 0xFF then s else { s with bap := { s.bap with macs := mset s.bap.macs r.src f.srcMac } }
    s.bapAccept r

/-! ## Time limits -/

/-- A session without a valid frame for `SESSION_IDLE_MS` ends (R43). -/
def State.sessionIdle (s : State) (node : Nat) : State :=
  match s.session node with
  | some x => if s.now ≥ x.lastValid + s.get Od.SESSION_IDLE_MS * 1000000 then s.endSession node else s
  | none => s

/-- A transfer with no segment for 1 s is abandoned (R38). -/
def State.xferTimeout (s : State) (key : Nat) : State :=
  match mget s.bap.xfers key with
  | some x => if s.now ≥ x.last + 1000000000 then s.dropBlock key else s
  | none => s

/-! ## Commands -/

/-- `READ` (R35). -/
def execRead (dt : Nat) (f : BapFrame) (s : State) : Res := .next ((s.advance dt).bapRx f)

/-- `WRITE` (R35). -/
def execWrite (dt : Nat) (f : BapFrame) (s : State) : Res := .next ((s.advance dt).bapRx f)

/-- `BLOCK_WRITE` (R38). -/
def execBlockWrite (dt : Nat) (f : BapFrame) (s : State) : Res := .next ((s.advance dt).bapRx f)

/-- `BLOCK_READ` (R39). -/
def execBlockRead (dt : Nat) (f : BapFrame) (s : State) : Res := .next ((s.advance dt).bapRx f)

/-- `SESSION_OPEN` (R41). -/
def execSessionOpen (dt : Nat) (f : BapFrame) (s : State) : Res := .next ((s.advance dt).bapRx f)

/-- `SESSION_CLOSE` (R43). -/
def execSessionClose (dt : Nat) (f : BapFrame) (s : State) : Res := .next ((s.advance dt).bapRx f)

/-- `DISCOVER` (R35). -/
def execDiscover (dt : Nat) (f : BapFrame) (s : State) : Res := .next ((s.advance dt).bapRx f)

/-- `DISCOVER_DELAY_EXPIRY` (R35). -/
def execDiscoverDelayExpiry (dt : Nat) (node : Nat) (s : State) : Res :=
  let s := s.advance dt
  .next (if s.netUp then s.flushNode node else s)

/-- `BLOCK_TRANSFER_TIMEOUT` (R38). -/
def execBlockTransferTimeout (dt : Nat) (idx sub : Nat) (s : State) : Res :=
  .next ((s.advance dt).xferTimeout (idx * 256 + sub))

/-- `SESSION_IDLE_EXPIRY` (R43). -/
def execSessionIdleExpiry (dt : Nat) (node : Nat) (s : State) : Res := .next ((s.advance dt).sessionIdle node)

end Sys2Proof.Machine
end

