-- ==== Sys2Proof/Machine/Window.lean ====
section
/-! DEFINITION. BAR0 of a PCI Express function as the host accesses it (R45 to R48, R137, R141, R147, R156). -/

namespace Sys2Proof.Machine

/-! ## Direct pages (R46 to R48) -/

/-- Index that a direct page shows; none where the page is not mapped (R45). -/
def Win.pageIndex (w : Win) (p : Nat) : Option Nat :=
  let e := mgetD w.pageMap p 0
  if bitOf e 31 then some (e % 2 ^ 16) else none

/-- Objects that only the access block reaches (R46). -/
def blockOnly (idx sub : Nat) : Bool :=
  match lookup idx sub with
  | .ok r => r.ty == .dom || r.ty == .str || isCommand (idx * 256 + sub)
  | .error _ => false

/-- The abort of an access through a page to an object that the access block alone reaches: steps 1 to 4 of R23, then
TYPE. DEDUCED: the page carries no operation that fits the object (log entry 24). -/
def State.blockOnlyCode (s : State) (fn : Fin 64) (idx sub : Nat) (write : Bool) : Nat :=
  match s.locate (.pcie fn) idx sub write false with
  | .error c => c
  | .ok r =>
    if write then (if r.acc == .ro || r.acc == .rc then Ab.READ_ONLY else Ab.TYPE)
    else if r.writeOnly then Ab.WRITE_ONLY else Ab.TYPE

/-- The object is a U64. -/
def isU64 (idx sub : Nat) : Bool :=
  match lookup idx sub with
  | .ok r => r.ty == .u64
  | .error _ => false

/-- Type code of an object; 0 where it does not exist. -/
def objCode (idx sub : Nat) : Nat :=
  match lookup idx sub with
  | .ok r => r.ty.code
  | .error _ => 0

/-- A write of a whole value through a page; a refusal is dropped and recorded (R48). DESIGN CHOICE: bits of the word above
the object's own size are dropped, so a BOOL written 0x100 takes 0 (log entry 49). -/
def State.pageWrite (s : State) (fn : Fin 64) (idx sub v : Nat) : State :=
  if blockOnly idx sub then s.winErr fn.val idx (s.blockOnlyCode fn idx sub true)
  else
    let ty := objCode idx sub
    let v := v % 2 ^ (8 * codeSize ty)
    let w := s.dictWrite (.pcie fn) idx sub ty (codeSize ty) v
    if w.code == Ab.OK then w.st.afterWrite (idx * 256 + sub) v Ab.OK else w.st.winErr fn.val idx w.code

/-- A 32-bit write to the lower or upper word of an object in a page (R47). DESIGN CHOICE: a refusal of a U64 is recorded
with its upper word, which is where the write takes effect, and not with the lower word before it (log entry 49). -/
def State.pageWrite32 (s : State) (fn : Fin 64) (idx sub : Nat) (upper : Bool) (v : Nat) : State :=
  let k := idx * 256 + sub
  if isU64 idx sub then
    let w := s.win fn.val
    if !upper then s.setWin fn.val { w with lower := mset w.lower k v }
    else
      let s := s.setWin fn.val { w with lower := mdel w.lower k }
      match mget w.lower k with
      | some lo => s.pageWrite fn idx sub (v * 2 ^ 32 + lo)
      -- no lower word was written before it (log entry 2)
      | none => s.spend.pageWrite fn idx sub (v * 2 ^ 32 + s.free % 2 ^ 32)
  else if upper then
    -- no object has an upper word here: ignored, but a refused access is recorded
    if blockOnly idx sub then s.winErr fn.val idx (s.blockOnlyCode fn idx sub true)
    else match s.locate (.pcie fn) idx sub true false with
      | .error code => s.winErr fn.val idx code
      | .ok _ => s
  else s.pageWrite fn idx sub v

/-- A 64-bit write in a page. -/
def State.pageWrite64 (s : State) (fn : Fin 64) (idx sub v : Nat) : State :=
  s.pageWrite fn idx sub (if isU64 idx sub then v else v % 2 ^ 32)

/-- A read of a whole value through a page; a refused read returns 0 and is recorded (R48). -/
def State.pageRead (s : State) (fn : Fin 64) (idx sub : Nat) : State × Nat :=
  if blockOnly idx sub then (s.winErr fn.val idx (s.blockOnlyCode fn idx sub false), 0)
  else
    let x := s.dictRead (.pcie fn) idx sub
    if x.code == Ab.OK then (x.st, x.val) else (x.st.winErr fn.val idx x.code, 0)

/-- A 32-bit read of the lower or upper word of an object in a page (R47). DESIGN CHOICE: a refused read of the lower word of
a U64 latches 0, and the read of that latched word is not refused again (log entry 49). -/
def State.pageRead32 (s : State) (fn : Fin 64) (idx sub : Nat) (upper : Bool) : State × Nat :=
  let k := idx * 256 + sub
  if !upper then
    match s.pageRead fn idx sub with
    | (s, v) =>
      let w := s.win fn.val
      (if isU64 idx sub then s.setWin fn.val { w with latched := mset w.latched k (v / 2 ^ 32) } else s, v % 2 ^ 32)
  else
    let w := s.win fn.val
    match mget w.latched k with
    | some h => (s.setWin fn.val { w with latched := mdel w.latched k }, h)
    | none =>
      if isU64 idx sub then
        match s.pageRead fn idx sub with
        | (s, v) => (s, v / 2 ^ 32)
      else match s.readCheck (.pcie fn) idx sub with
        | .error c => (s.winErr fn.val idx c, 0)
        | .ok _ => (s, 0)

/-! ## The access block (R45, R46) -/

/-- The registers of the access block as a GO finds them. -/
def Win.loaded (w : Win) (addr ctrl lo hi off len : Nat) (buf : List Byte) : Win :=
  { w with daAddr := addr % 2 ^ 24, daCtrl := ctrl, daLo := lo % 2 ^ 32, daHi := hi % 2 ^ 32, daOffset := off % 2 ^ 32,
           daLen := len % 2 ^ 32, daBuf := padTo 4096 buf }

/-- An access ends with an abort code, a free time after its start, until which `GO` reads 1 (R45; log entry 24). -/
def State.daDone (s : State) (fn : Fin 64) (code : Nat) : State :=
  let w := s.win fn.val
  s.spend.setWin fn.val { w with daStatus := 2 ^ 31 + code, daBefore := w.daStatus % 2 ^ 16, goUntil := s.now + s.free }

/-- `GO` reads 1: an access is under way. -/
def State.goBusy (s : State) (fn : Fin 64) : Bool := s.now < (s.win fn.val).goUntil

/-- The read that a GO starts, from the registers of the block. -/
def State.daReadGo (s : State) (fn : Fin 64) : State :=
  let w := s.win fn.val
  let idx := w.daAddr / 256
  let sub := w.daAddr % 256
  let ty := w.daCtrl % 16
  if ty == 9 then
    match s.blockRead (.pcie fn) idx sub w.daOffset w.daLen with
    | (code, _, data) =>
      let code := if code == Ab.OK && (w.daLen == 0 || w.daLen > 4096) then Ab.RANGE else code
      let w := if code == Ab.OK then { w with daBuf := data ++ w.daBuf.drop data.length } else w
      (s.setWin fn.val w).daDone fn code
  else
    let x := s.dictRead (.pcie fn) idx sub
    let w := x.st.win fn.val
    let w := if x.code == Ab.OK then { w with daLo := x.val % 2 ^ 32, daHi := x.val / 2 ^ 32 } else w
    (x.st.setWin fn.val w).daDone fn x.code

/-- The write that a GO starts: a DOM transfer takes `TOTAL` from `DA_DATA_LO`, and bits of `DA_DATA` above the size of
the type code are dropped (DESIGN CHOICE, log entry 49). -/
def State.daWriteGo (s : State) (fn : Fin 64) : State :=
  let w := s.win fn.val
  let idx := w.daAddr / 256
  let sub := w.daAddr % 256
  let k := w.daAddr
  let ty := w.daCtrl % 16
  if ty == 9 then
    let b := s.blockWrite (.pcie fn) idx sub ty w.daOffset w.daLo
      (if w.daLen > 4096 then w.daBuf ++ [0] else w.daBuf.take w.daLen) 4096
    b.st.daDone fn b.code
  else
    let v := (w.daHi * 2 ^ 32 + w.daLo) % 2 ^ (8 * codeSize ty)
    let r := s.dictWrite (.pcie fn) idx sub ty (codeSize ty) v
    let s := if r.code == Ab.OK && isCommand k then r.st.setWin fn.val { r.st.win fn.val with daLo := r.handle } else r.st
    -- R106: answered with DA_STATUS before it takes effect
    (s.daDone fn r.code).afterWrite k v r.code

/-- A GO is written: an access starts from the registers of the block, unless one is under way, where the GO is ignored and
counted (R46). The dictionary core executes the access when it starts. -/
def State.daGo (s : State) (fn : Fin 64) (write : Bool) : State :=
  let w := s.win fn.val
  if s.goBusy fn then s.setWin fn.val { w with errCount := min 0xFFFFFFFF (w.errCount + 1) }
  else if write then s.daWriteGo fn else s.daReadGo fn

/-! ## BAR0 (R137) -/

/-- The MSI-X table and pending bits: clearing a mask sends what is pending. -/
def State.msixWrite (s : State) (fn word v : Nat) : State :=
  let w := s.win fn
  let v := if word % 4 == 3 then v % 2 else v
  let vec := word / 4
  let w := { w with msixTable := mset w.msixTable word v }
  if word % 4 == 3 && v == 0 && mgetD w.msixPending vec 0 == 1 then
    (s.setWin fn { w with msixPending := mdel w.msixPending vec }).emit (.msix fn vec)
  else s.setWin fn w

/-- Four bytes of the access block's buffer. -/
def putBuf (b : List Byte) (off v : Nat) : List Byte :=
  let b := padTo 4096 b
  b.take off ++ toLe 4 v ++ b.drop (off + 4)

/-- A write of a register of the access block (R45). -/
def State.daRegWrite (s : State) (fn : Fin 64) (r v : Nat) : State :=
  let w := s.win fn.val
  if r == 0x00 then s.setWin fn.val { w with daAddr := v % 2 ^ 24 }
  else if r == 0x04 then
    let s := s.setWin fn.val { w with daCtrl := v % 16 + (if bitOf v 8 then 256 else 0) }
    if bitOf v 31 then s.daGo fn (bitOf v 8) else s
  else if r == 0x08 then s.setWin fn.val { w with daLo := v }
  else if r == 0x0C then s.setWin fn.val { w with daHi := v }
  else if r == 0x1C then s.setWin fn.val { w with daOffset := v }
  else if r == 0x20 then s.setWin fn.val { w with daLen := v }
  else if 0x100 ≤ r && r < 0x200 then
    s.setWin fn.val { w with pageMap := mput 0 w.pageMap ((r - 0x100) / 4) (clearN v 0x7FFF0000) }
  else if 0x1000 ≤ r && r < 0x2000 then s.setWin fn.val { w with daBuf := putBuf w.daBuf (r - 0x1000) v }
  else s

/-- Page, sub-index and word half of an offset in the direct pages. -/
def pageAt (off : Nat) : Nat × Nat × Bool := ((off - 0x110000) / 0x800, (off - 0x110000) % 0x800 / 8, off % 8 == 4)

/-- The offset lies in the direct pages. -/
def inPages (off : Nat) : Bool := 0x110000 ≤ off && off < 0x130000

/-- The offset lies in the Sluice flags or fences. -/
def inFlags (off : Nat) : Bool := (0x2000 ≤ off && off < 0x2800) || (0x4000 ≤ off && off < 0x6000)

/-- A 32-bit write to BAR0. -/
def State.barWrite32 (s : State) (fn : Fin 64) (off v : Nat) : State :=
  if off < 0x400 then (if off % 8 == 0 then s.doorbell fn.val (off / 8) v else s)
  else if off == 0x1000 then s.setWin fn.val { s.win fn.val with query := v }
  else if 0x2000 ≤ off && off < 0x2800 then s.barFlag fn.val false ((off - 0x2000) / 8) (off % 8 == 4) v
  else if 0x4000 ≤ off && off < 0x6000 then s.barFlag fn.val true ((off - 0x4000) / 8) (off % 8 == 4) v
  else if 0x8000 ≤ off && off < 0x8400 then s.msixWrite fn.val ((off - 0x8000) / 4) v
  else if inPages off then
    match (s.win fn.val).pageIndex (pageAt off).1 with
    | some idx => s.pageWrite32 fn idx (pageAt off).2.1 (pageAt off).2.2 v
    | none => s
  else if 0x100000 ≤ off && off < 0x102000 then s.daRegWrite fn (off - 0x100000) v
  else s

/-- A write to BAR0 of 32 or 64 bits at an aligned offset. -/
def State.barWrite (s : State) (fn : Fin 64) (off : Nat) (wide : Bool) (v : Nat) : State :=
  if !s.boot.pcieUp || off % (if wide then 8 else 4) != 0 then s
  else if !wide then s.barWrite32 fn off (v % 2 ^ 32)
  else if inPages off then
    match (s.win fn.val).pageIndex (pageAt off).1 with
    | some idx => s.pageWrite64 fn idx (pageAt off).2.1 (v % 2 ^ 64)
    | none => s
  -- R156: one access, whose upper word is ignored
  else if inFlags off then s.barWrite32 fn off (v % 2 ^ 32)
  else (s.barWrite32 fn off (v % 2 ^ 32)).barWrite32 fn (off + 4) (v / 2 ^ 32 % 2 ^ 32)

/-- A flag or fence as BAR0 reads it: the value, and `POISON` in bit 32 (R156). -/
def State.flagRead (s : State) (fn : Nat) (fence : Bool) (id : Nat) : State × Nat :=
  if !s.mayName fn fence id then (s.winErr fn 0 Ab.AUTH, 0)
  else
    let f := s.flag fence id
    (s, f.val + (if f.poison then 2 ^ 32 else 0))

/-- A read of a register of the access block; `WIN_ERR_COUNT` clears (R45). -/
def State.daRegRead (s : State) (fn : Fin 64) (r : Nat) : State × Nat :=
  let w := s.win fn.val
  if r == 0x00 then (s, w.daAddr)
  else if r == 0x04 then (s, w.daCtrl + (if s.goBusy fn then 2 ^ 31 else 0))
  else if r == 0x08 then (s, w.daLo)
  else if r == 0x0C then (s, w.daHi)
  else if r == 0x10 then (s, if s.goBusy fn then w.daBefore else w.daStatus)
  else if r == 0x14 then (s, w.lastAbort)
  else if r == 0x18 then (s.setWin fn.val { w with errCount := 0 }, w.errCount)
  else if r == 0x1C then (s, w.daOffset)
  else if r == 0x20 then (s, w.daLen)
  else if 0x100 ≤ r && r < 0x200 then (s, mgetD w.pageMap ((r - 0x100) / 4) 0)
  else if 0x1000 ≤ r && r < 0x2000 then (s, fld (padTo 4096 w.daBuf) (r - 0x1000) 4)
  else (s, 0)

/-- The pending-bit array (R137). -/
def Win.pendingBits (w : Win) : Nat := w.msixPending.foldl (fun v e => if e.2 == 1 then orN v (2 ^ e.1) else v) 0

/-- A 32-bit read of BAR0. -/
def State.barRead32 (s : State) (fn : Fin 64) (off : Nat) : State × Nat :=
  let w := s.win fn.val
  if off < 0x400 then (s, if off % 8 == 0 then s.get (Od.Q_TAIL (off / 8)) + s.get (Od.Q_DONE (off / 8)) * 2 ^ 16 else 0)
  else if off == 0x1000 then (s, w.query)
  else if off == 0x1004 then (s, s.jobState fn.val)
  else if 0x2000 ≤ off && off < 0x2800 then
    match s.flagRead fn.val false ((off - 0x2000) / 8) with
    | (s, v) => (s, if off % 8 == 4 then v / 2 ^ 32 else v % 2 ^ 32)
  else if 0x4000 ≤ off && off < 0x6000 then
    match s.flagRead fn.val true ((off - 0x4000) / 8) with
    | (s, v) => (s, if off % 8 == 4 then v / 2 ^ 32 else v % 2 ^ 32)
  else if 0x8000 ≤ off && off < 0x8400 then
    let word := (off - 0x8000) / 4
    (s, mgetD w.msixTable word (if word % 4 == 3 then 1 else 0))
  else if off == 0x9000 then (s, w.pendingBits % 2 ^ 32)
  else if off == 0x9004 then (s, w.pendingBits / 2 ^ 32)
  else if inPages off then
    match w.pageIndex (pageAt off).1 with
    | some idx => s.pageRead32 fn idx (pageAt off).2.1 (pageAt off).2.2
    | none => (s, 0)
  else if 0x100000 ≤ off && off < 0x102000 then s.daRegRead fn (off - 0x100000)
  else (s, 0)

/-- A 64-bit read of BAR0. -/
def State.barRead64 (s : State) (fn : Fin 64) (off : Nat) : State × Nat :=
  if 0x2000 ≤ off && off < 0x2800 then s.flagRead fn.val false ((off - 0x2000) / 8)
  else if 0x4000 ≤ off && off < 0x6000 then s.flagRead fn.val true ((off - 0x4000) / 8)
  else if inPages off then
    match (s.win fn.val).pageIndex (pageAt off).1 with
    | some idx => s.pageRead fn idx (pageAt off).2.1
    | none => (s, 0)
  else
    match s.barRead32 fn off with
    | (s, lo) => match s.barRead32 fn (off + 4) with
      | (s, hi) => (s, hi * 2 ^ 32 + lo)

/-- A read of BAR0 of 32 or 64 bits at an aligned offset, and the data it returns. -/
def State.barRead (s : State) (fn : Fin 64) (off : Nat) (wide : Bool) : State :=
  if !s.boot.pcieUp || off % (if wide then 8 else 4) != 0 then s
  else
    match (if wide then s.barRead64 fn off else s.barRead32 fn off) with
    | (s, v) => s.emit (.barData fn.val v)

/-! ## Commands -/

/-- `DA_READ` (R46). -/
def execDaRead (dt : Nat) (fn : Fin 64) (addr ty offset len : Nat) (s : State) : Res :=
  let s := s.advance dt
  let w := s.win fn.val
  .next (if s.boot.pcieUp
    then (s.setWin fn.val (w.loaded addr (ty % 16) w.daLo w.daHi offset len w.daBuf)).daGo fn false else s)

/-- `DA_WRITE` (R46). -/
def execDaWrite (dt : Nat) (fn : Fin 64) (addr ty lo hi offset len : Nat) (buf : List Byte) (s : State) : Res :=
  let s := s.advance dt
  let w := s.win fn.val
  .next (if s.boot.pcieUp
    then (s.setWin fn.val (w.loaded addr (256 + ty % 16) lo hi offset len buf)).daGo fn true else s)

/-- `DIRECT_PAGE_WRITE` (R47, R48). -/
def execDirectPageWrite (dt : Nat) (fn : Fin 64) (off : Nat) (wide : Bool) (val : Nat) (s : State) : Res :=
  .next ((s.advance dt).barWrite fn off wide val)

/-- `DIRECT_PAGE_READ` (R47, R48). -/
def execDirectPageRead (dt : Nat) (fn : Fin 64) (off : Nat) (wide : Bool) (s : State) : Res :=
  .next ((s.advance dt).barRead fn off wide)

end Sys2Proof.Machine
end

