-- ==== Sys2Proof/Machine/Writes.lean ====
section
/-! DEFINITION. The commands that are a write of one object reaching the dictionary core (R31): each goes through the
checks of R23 and is answered; a change of NODE_ID and a warm reset follow the answer (R62, R106). -/

namespace Sys2Proof.Machine

/-- A write of one object, its answer, and what follows the answer. What the write itself sends comes after the
answer (R53). -/
def State.objWrite (s : State) (key : Nat) (w : WReq) : State :=
  if !s.pathUp w.via then s
  else
    let r := { s with out := [] }.dictWrite w.via (key / 256) (key % 256) w.ty w.size w.val
    let t := r.st.countBap w.via r.code
    { t with out := t.out ++ (Out.answer w.via key r.code r.handle :: s.out) }.afterWrite key w.val r.code

/-! ## Commands -/

/-- `TICK_EN_WRITE` (R16). -/
def execTickEnWrite (dt : Nat) (w : WReq) (s : State) : Res := .next ((s.advance dt).objWrite Od.TICK_EN w)

/-- `TICK_SRC_WRITE` (R19). -/
def execTickSrcWrite (dt : Nat) (w : WReq) (s : State) : Res := .next ((s.advance dt).objWrite Od.TICK_SRC w)

/-- `GEN_PERIOD_NS_WRITE` (R19). -/
def execGenPeriodNsWrite (dt : Nat) (w : WReq) (s : State) : Res := .next ((s.advance dt).objWrite Od.GEN_PERIOD_NS w)

/-- `NODE_ID_WRITE` (R62). -/
def execNodeIdWrite (dt : Nat) (w : WReq) (s : State) : Res := .next ((s.advance dt).objWrite Od.NODE_ID w)

/-- `DICT_WRITE` (R26). -/
def execDictWrite (dt : Nat) (idx sub : Nat) (w : WReq) (s : State) : Res := .next ((s.advance dt).objWrite (idx * 256 + sub) w)

/-- `RELEASE` (R384). -/
def execRelease (dt : Nat) (slot : Fin 256) (w : WReq) (s : State) : Res := .next ((s.advance dt).objWrite (Od.RELEASE slot.val) w)

/-- `STORE` (R60). -/
def execStore (dt : Nat) (w : WReq) (s : State) : Res := .next ((s.advance dt).objWrite Od.STORE w)

/-- `ERASE` (R60). -/
def execErase (dt : Nat) (w : WReq) (s : State) : Res := .next ((s.advance dt).objWrite Od.ERASE w)

/-- `WARM_RESET` (R106). -/
def execWarmReset (dt : Nat) (w : WReq) (s : State) : Res := .next ((s.advance dt).objWrite Od.WARM_RESET w)

/-- `FW_LOAD` (R91). -/
def execFwLoad (dt : Nat) (w : WReq) (s : State) : Res := .next ((s.advance dt).objWrite Od.FW_LOAD w)

/-- `PD_REQ_WRITE` (R95). -/
def execPdReqWrite (dt : Nat) (d : Fin 8) (w : WReq) (s : State) : Res := .next ((s.advance dt).objWrite (Od.PD_REQ d.val) w)

/-- `PLL_REQ_MHZ_WRITE` (R103). -/
def execPllReqMhzWrite (dt : Nat) (p : Fin 4) (w : WReq) (s : State) : Res := .next ((s.advance dt).objWrite (Od.PLL_REQ_MHZ_CPLL + p.val) w)

/-- `ENGINE_RESET` (R363). -/
def execEngineReset (dt : Nat) (w : WReq) (s : State) : Res := .next ((s.advance dt).objWrite Od.ENGINE_RESET w)

/-- `CLIENT_RESET` (R367). -/
def execClientReset (dt : Nat) (w : WReq) (s : State) : Res := .next ((s.advance dt).objWrite Od.CLIENT_RESET w)

/-- `MEM_RATE_REQ_WRITE` (R110). -/
def execMemRateReqWrite (dt : Nat) (w : WReq) (s : State) : Res := .next ((s.advance dt).objWrite Od.MEM_RATE_REQ w)

/-- `MEM_TRAIN` (R111). -/
def execMemTrain (dt : Nat) (w : WReq) (s : State) : Res := .next ((s.advance dt).objWrite Od.MEM_TRAIN w)

/-- `XLAT_ROOT_WRITE` (R120). -/
def execXlatRootWrite (dt : Nat) (n : Fin 64) (w : WReq) (s : State) : Res := .next ((s.advance dt).objWrite (Od.XLAT_ROOT n.val) w)

/-- `XLAT_EN_WRITE` (R120). -/
def execXlatEnWrite (dt : Nat) (n : Fin 64) (w : WReq) (s : State) : Res := .next ((s.advance dt).objWrite (Od.XLAT_EN n.val) w)

/-- `XLAT_INVAL` (R120). -/
def execXlatInval (dt : Nat) (n : Fin 64) (w : WReq) (s : State) : Res := .next ((s.advance dt).objWrite (Od.XLAT_INVAL n.val) w)

/-- `REPARTITION` (R123). -/
def execRepartition (dt : Nat) (w : WReq) (s : State) : Res := .next ((s.advance dt).objWrite Od.REPARTITION w)

/-- `Q_ENABLE_WRITE` (R136). -/
def execQEnableWrite (dt : Nat) (q : Fin 128) (w : WReq) (s : State) : Res := .next ((s.advance dt).objWrite (Od.Q_ENABLE q.val) w)

/-- `CL_CR_HEAD_WRITE` (R151). -/
def execClCrHeadWrite (dt : Nat) (n : Fin 64) (w : WReq) (s : State) : Res := .next ((s.advance dt).objWrite (Od.CL_CR_HEAD n.val) w)

/-- `CL_CR_EN_WRITE` (R151). -/
def execClCrEnWrite (dt : Nat) (n : Fin 64) (w : WReq) (s : State) : Res := .next ((s.advance dt).objWrite (Od.CL_CR_EN n.val) w)

/-- `IS_EN_WRITE` (R167). -/
def execIsEnWrite (dt : Nat) (i : Fin 16) (w : WReq) (s : State) : Res := .next ((s.advance dt).objWrite (Od.IS_EN i.val) w)

/-- `WHEEL_LOAD` (R174). -/
def execWheelLoad (dt : Nat) (w : WReq) (s : State) : Res := .next ((s.advance dt).objWrite Od.WHEEL_LOAD w)

/-- `WHEEL_UNLOAD` (R175). -/
def execWheelUnload (dt : Nat) (w : WReq) (s : State) : Res := .next ((s.advance dt).objWrite Od.WHEEL_UNLOAD w)

/-- `SV_ENABLE_WRITE` (R232). -/
def execSvEnableWrite (dt : Nat) (k : Fin 8) (w : WReq) (s : State) : Res := .next ((s.advance dt).objWrite (Od.SV_ENABLE k.val) w)

/-- `ST_CLEAR` (R297). -/
def execStClear (dt : Nat) (k : Fin 4) (w : WReq) (s : State) : Res := .next ((s.advance dt).objWrite (Od.ST_CLEAR k.val) w)

/-- `PIPE_IF_WRITE` (R311). -/
def execPipeIfWrite (dt : Nat) (p : Fin 4) (w : WReq) (s : State) : Res := .next ((s.advance dt).objWrite (Od.PIPE_IF p.val) w)

/-- `LINK_TRAIN` (R315). -/
def execLinkTrain (dt : Nat) (p : Fin 4) (w : WReq) (s : State) : Res := .next ((s.advance dt).objWrite (Od.LINK_TRAIN p.val) w)

/-- `PIPE_EN_WRITE` (R317). -/
def execPipeEnWrite (dt : Nat) (p : Fin 4) (w : WReq) (s : State) : Res := .next ((s.advance dt).objWrite (Od.PIPE_EN p.val) w)

/-- `CAS_FORM` (R340). -/
def execCasForm (dt : Nat) (w : WReq) (s : State) : Res := .next ((s.advance dt).objWrite Od.CAS_FORM w)

/-- `CAS_DISSOLVE` (R341). -/
def execCasDissolve (dt : Nat) (w : WReq) (s : State) : Res := .next ((s.advance dt).objWrite Od.CAS_DISSOLVE w)

/-- `GOV_KEY` (R352). -/
def execGovKey (dt : Nat) (w : WReq) (s : State) : Res := .next ((s.advance dt).objWrite Od.GOV_KEY w)

/-- `SCARE_KEY` (R354). -/
def execScareKey (dt : Nat) (w : WReq) (s : State) : Res := .next ((s.advance dt).objWrite Od.SCARE_KEY w)

/-- `SCARE_DISABLE` (R355). -/
def execScareDisable (dt : Nat) (w : WReq) (s : State) : Res := .next ((s.advance dt).objWrite Od.SCARE_DISABLE w)

/-- `SCARE_LOCK` (R355). -/
def execScareLock (dt : Nat) (w : WReq) (s : State) : Res := .next ((s.advance dt).objWrite Od.SCARE_LOCK w)

/-- `SELFTEST` (R378). -/
def execSelftest (dt : Nat) (w : WReq) (s : State) : Res := .next ((s.advance dt).objWrite Od.SELFTEST w)

end Sys2Proof.Machine
end

