-- ==== Sys2Proof/Machine/Dispatch.lean ====
section
/-! DEFINITION. What each command does: one arm per constructor, one meaning per arm. -/

namespace Sys2Proof.Machine

def exec (i : Instr) (s : State) : Host.Outcome State Fault Refusal :=
  match i with
  | .tickInEdge dt high latency => Sys2Proof.Machine.execTickInEdge dt high latency s
  | .internalTick dt => Sys2Proof.Machine.execInternalTick dt s
  | .substitutedTick dt => Sys2Proof.Machine.execSubstitutedTick dt s
  | .bucketStart dt => Sys2Proof.Machine.execBucketStart dt s
  | .tickOutFall dt => Sys2Proof.Machine.execTickOutFall dt s
  | .tickEnWrite dt w => Sys2Proof.Machine.execTickEnWrite dt w s
  | .tickSrcWrite dt w => Sys2Proof.Machine.execTickSrcWrite dt w s
  | .genPeriodNsWrite dt w => Sys2Proof.Machine.execGenPeriodNsWrite dt w s
  | .read dt f => Sys2Proof.Machine.execRead dt f s
  | .write dt f => Sys2Proof.Machine.execWrite dt f s
  | .blockWrite dt f => Sys2Proof.Machine.execBlockWrite dt f s
  | .blockRead dt f => Sys2Proof.Machine.execBlockRead dt f s
  | .sessionOpen dt f => Sys2Proof.Machine.execSessionOpen dt f s
  | .sessionClose dt f => Sys2Proof.Machine.execSessionClose dt f s
  | .discover dt f => Sys2Proof.Machine.execDiscover dt f s
  | .discoverDelayExpiry dt node => Sys2Proof.Machine.execDiscoverDelayExpiry dt node s
  | .blockTransferTimeout dt idx sub => Sys2Proof.Machine.execBlockTransferTimeout dt idx sub s
  | .sessionIdleExpiry dt node => Sys2Proof.Machine.execSessionIdleExpiry dt node s
  | .nodeIdWrite dt w => Sys2Proof.Machine.execNodeIdWrite dt w s
  | .daRead dt fn addr ty offset len => Sys2Proof.Machine.execDaRead dt fn addr ty offset len s
  | .daWrite dt fn addr ty lo hi offset len buf => Sys2Proof.Machine.execDaWrite dt fn addr ty lo hi offset len buf s
  | .directPageWrite dt fn off wide val => Sys2Proof.Machine.execDirectPageWrite dt fn off wide val s
  | .directPageRead dt fn off wide => Sys2Proof.Machine.execDirectPageRead dt fn off wide s
  | .dictWrite dt idx sub w => Sys2Proof.Machine.execDictWrite dt idx sub w s
  | .release dt slot w => Sys2Proof.Machine.execRelease dt slot w s
  | .store dt w => Sys2Proof.Machine.execStore dt w s
  | .erase dt w => Sys2Proof.Machine.execErase dt w s
  | .longOperationDone dt slot r => Sys2Proof.Machine.execLongOperationDone dt slot r s
  | .porstNFall dt => Sys2Proof.Machine.execPorstNFall dt s
  | .porstNRise dt b => Sys2Proof.Machine.execPorstNRise dt b s
  | .supplyLoss dt => Sys2Proof.Machine.execSupplyLoss dt s
  | .wrstNFall dt => Sys2Proof.Machine.execWrstNFall dt s
  | .wrstNRise dt => Sys2Proof.Machine.execWrstNRise dt s
  | .warmReset dt w => Sys2Proof.Machine.execWarmReset dt w s
  | .bootRomStart dt nor => Sys2Proof.Machine.execBootRomStart dt nor s
  | .imageVerifyDone dt => Sys2Proof.Machine.execImageVerifyDone dt s
  | .fwLoad dt w => Sys2Proof.Machine.execFwLoad dt w s
  | .gpioStrapApply dt => Sys2Proof.Machine.execGpioStrapApply dt s
  | .pdReqWrite dt d w => Sys2Proof.Machine.execPdReqWrite dt d w s
  | .drainEnd dt d => Sys2Proof.Machine.execDrainEnd dt d s
  | .domainOff dt d => Sys2Proof.Machine.execDomainOff dt d s
  | .domainOpenEnd dt d => Sys2Proof.Machine.execDomainOpenEnd dt d s
  | .leatPacketRetry dt => Sys2Proof.Machine.execLeatPacketRetry dt s
  | .pllReqMhzWrite dt p w => Sys2Proof.Machine.execPllReqMhzWrite dt p w s
  | .pllChangeStart dt p => Sys2Proof.Machine.execPllChangeStart dt p s
  | .pllChangeEnd dt p => Sys2Proof.Machine.execPllChangeEnd dt p s
  | .engineReset dt w => Sys2Proof.Machine.execEngineReset dt w s
  | .clientReset dt w => Sys2Proof.Machine.execClientReset dt w s
  | .functionLevelReset dt fn => Sys2Proof.Machine.execFunctionLevelReset dt fn s
  | .memRateReqWrite dt w => Sys2Proof.Machine.execMemRateReqWrite dt w s
  | .memTrain dt w => Sys2Proof.Machine.execMemTrain dt w s
  | .xlatRootWrite dt n w => Sys2Proof.Machine.execXlatRootWrite dt n w s
  | .xlatEnWrite dt n w => Sys2Proof.Machine.execXlatEnWrite dt n w s
  | .xlatInval dt n w => Sys2Proof.Machine.execXlatInval dt n w s
  | .repartition dt w => Sys2Proof.Machine.execRepartition dt w s
  | .repartitionApply dt => Sys2Proof.Machine.execRepartitionApply dt s
  | .bankRetentionEntry dt b => Sys2Proof.Machine.execBankRetentionEntry dt b s
  | .refillStart dt p => Sys2Proof.Machine.execRefillStart dt p s
  | .selfRefreshEntry dt => Sys2Proof.Machine.execSelfRefreshEntry dt s
  | .selfRefreshExit dt => Sys2Proof.Machine.execSelfRefreshExit dt s
  | .qEnableWrite dt q w => Sys2Proof.Machine.execQEnableWrite dt q w s
  | .doorbell dt fn q val => Sys2Proof.Machine.execDoorbell dt fn q val s
  | .jobQuery dt fn handle => Sys2Proof.Machine.execJobQuery dt fn handle s
  | .jobStart dt q => Sys2Proof.Machine.execJobStart dt q s
  | .jobComplete dt q => Sys2Proof.Machine.execJobComplete dt q s
  | .heldRecordWrite dt n => Sys2Proof.Machine.execHeldRecordWrite dt n s
  | .clCrHeadWrite dt n w => Sys2Proof.Machine.execClCrHeadWrite dt n w s
  | .clCrEnWrite dt n w => Sys2Proof.Machine.execClCrEnWrite dt n w s
  | .flagWrite dt fn fence id upper val => Sys2Proof.Machine.execFlagWrite dt fn fence id upper val s
  | .nop dt j => Sys2Proof.Machine.execNop dt j s
  | .indirect dt j => Sys2Proof.Machine.execIndirect dt j s
  | .copy dt j u => Sys2Proof.Machine.execCopy dt j u s
  | .copy2d dt j u => Sys2Proof.Machine.execCopy2d dt j u s
  | .fill dt j u => Sys2Proof.Machine.execFill dt j u s
  | .ingestPut dt j u => Sys2Proof.Machine.execIngestPut dt j u s
  | .isEnWrite dt k w => Sys2Proof.Machine.execIsEnWrite dt k w s
  | .frameStartPacket dt port p => Sys2Proof.Machine.execFrameStartPacket dt port p s
  | .longPacket dt port p payload crc => Sys2Proof.Machine.execLongPacket dt port p payload crc s
  | .frameEndPacket dt port p => Sys2Proof.Machine.execFrameEndPacket dt port p s
  | .wheelLoad dt w => Sys2Proof.Machine.execWheelLoad dt w s
  | .wheelCheckDone dt => Sys2Proof.Machine.execWheelCheckDone dt s
  | .wheelUnload dt w => Sys2Proof.Machine.execWheelUnload dt w s
  | .preemptionPoint dt u acc staging => Sys2Proof.Machine.execPreemptionPoint dt u acc staging s
  | .contextSwitchDone dt u => Sys2Proof.Machine.execContextSwitchDone dt u s
  | .runNet dt j u => Sys2Proof.Machine.execRunNet dt j u s
  | .runDibber dt j u => Sys2Proof.Machine.execRunDibber dt j u s
  | .svEnableWrite dt k w => Sys2Proof.Machine.execSvEnableWrite dt k w s
  | .servingStep dt k u => Sys2Proof.Machine.execServingStep dt k u s
  | .loadKernel dt j => Sys2Proof.Machine.execLoadKernel dt j s
  | .unloadKernel dt j => Sys2Proof.Machine.execUnloadKernel dt j s
  | .kernelSlotEmptied dt client kslot => Sys2Proof.Machine.execKernelSlotEmptied dt client kslot s
  | .renderPass dt j u => Sys2Proof.Machine.execRenderPass dt j u s
  | .binStoreAcquire dt j u => Sys2Proof.Machine.execBinStoreAcquire dt j u s
  | .dispatch dt j u => Sys2Proof.Machine.execDispatch dt j u s
  | .vxDetect dt j => Sys2Proof.Machine.execVxDetect dt j s
  | .vxTrack dt j => Sys2Proof.Machine.execVxTrack dt j s
  | .vxMatch dt j => Sys2Proof.Machine.execVxMatch dt j s
  | .visionUnitEnd dt u => Sys2Proof.Machine.execVisionUnitEnd dt u s
  | .slvUpload dt j u => Sys2Proof.Machine.execSlvUpload dt j u s
  | .slvSolveBa dt j u => Sys2Proof.Machine.execSlvSolveBa dt j u s
  | .slvDense dt j u => Sys2Proof.Machine.execSlvDense dt j u s
  | .solveDeadline dt j => Sys2Proof.Machine.execSolveDeadline dt j s
  | .stClear dt k w => Sys2Proof.Machine.execStClear dt k w s
  | .frameStart dt p u => Sys2Proof.Machine.execFrameStart dt p u s
  | .bandStart dt p => Sys2Proof.Machine.execBandStart dt p s
  | .bandComplete dt p => Sys2Proof.Machine.execBandComplete dt p s
  | .bandDeadline dt p => Sys2Proof.Machine.execBandDeadline dt p s
  | .pipeIfWrite dt p w => Sys2Proof.Machine.execPipeIfWrite dt p w s
  | .linkTrain dt p w => Sys2Proof.Machine.execLinkTrain dt p w s
  | .pipeEnWrite dt p w => Sys2Proof.Machine.execPipeEnWrite dt p w s
  | .hpdLow dt port => Sys2Proof.Machine.execHpdLow dt port s
  | .hpdPulse dt port => Sys2Proof.Machine.execHpdPulse dt port s
  | .present dt j => Sys2Proof.Machine.execPresent dt j s
  | .linkXfer dt j reply => Sys2Proof.Machine.execLinkXfer dt j reply s
  | .palette dt j => Sys2Proof.Machine.execPalette dt j s
  | .frameScanEnd dt p => Sys2Proof.Machine.execFrameScanEnd dt p s
  | .underrun dt p x y count => Sys2Proof.Machine.execUnderrun dt p x y count s
  | .outchkCompare dt p pins => Sys2Proof.Machine.execOutchkCompare dt p pins s
  | .leatLinkUp dt port peer => Sys2Proof.Machine.execLeatLinkUp dt port peer s
  | .leatLinkDown dt port => Sys2Proof.Machine.execLeatLinkDown dt port s
  | .data dt port pkt => Sys2Proof.Machine.execData dt port pkt s
  | .doorbellPacket dt port pkt => Sys2Proof.Machine.execDoorbellPacket dt port pkt s
  | .tickPacket dt port pkt => Sys2Proof.Machine.execTickPacket dt port pkt s
  | .seam dt port pkt => Sys2Proof.Machine.execSeam dt port pkt s
  | .readReq dt port pkt => Sys2Proof.Machine.execReadReq dt port pkt s
  | .readData dt port pkt => Sys2Proof.Machine.execReadData dt port pkt s
  | .done dt port pkt => Sys2Proof.Machine.execDone dt port pkt s
  | .discoverPacket dt port pkt => Sys2Proof.Machine.execDiscoverPacket dt port pkt s
  | .discoverReply dt port pkt => Sys2Proof.Machine.execDiscoverReply dt port pkt s
  | .config dt port pkt => Sys2Proof.Machine.execConfig dt port pkt s
  | .leatSend dt j => Sys2Proof.Machine.execLeatSend dt j s
  | .seamSend dt j => Sys2Proof.Machine.execSeamSend dt j s
  | .leatFetch dt j => Sys2Proof.Machine.execLeatFetch dt j s
  | .casForm dt w => Sys2Proof.Machine.execCasForm dt w s
  | .formationCheck dt => Sys2Proof.Machine.execFormationCheck dt s
  | .casDissolve dt w => Sys2Proof.Machine.execCasDissolve dt w s
  | .tickPacketTimeout dt => Sys2Proof.Machine.execTickPacketTimeout dt s
  | .seamDeadline dt k => Sys2Proof.Machine.execSeamDeadline dt k s
  | .govKey dt w => Sys2Proof.Machine.execGovKey dt w s
  | .governorExpiry dt => Sys2Proof.Machine.execGovernorExpiry dt s
  | .scareKey dt w => Sys2Proof.Machine.execScareKey dt w s
  | .scareDisable dt w => Sys2Proof.Machine.execScareDisable dt w s
  | .scareLock dt w => Sys2Proof.Machine.execScareLock dt w s
  | .scarecrowExpiry dt => Sys2Proof.Machine.execScarecrowExpiry dt s
  | .selftest dt w => Sys2Proof.Machine.execSelftest dt w s
  | .tapReset dt t => Sys2Proof.Machine.execTapReset dt t s
  | .extest dt t => Sys2Proof.Machine.execExtest dt t s
  | .samplePreload dt t => Sys2Proof.Machine.execSamplePreload dt t s
  | .idcode dt t => Sys2Proof.Machine.execIdcode dt t s
  | .clamp dt t => Sys2Proof.Machine.execClamp dt t s
  | .highz dt t => Sys2Proof.Machine.execHighz dt t s
  | .extestPulse dt t => Sys2Proof.Machine.execExtestPulse dt t s
  | .extestTrain dt t => Sys2Proof.Machine.execExtestTrain dt t s
  | .strapRead dt t => Sys2Proof.Machine.execStrapRead dt t s
  | .bandCrc dt t => Sys2Proof.Machine.execBandCrc dt t s
  | .outchkLoop dt t => Sys2Proof.Machine.execOutchkLoop dt t s
  | .bypass dt t => Sys2Proof.Machine.execBypass dt t s
  | .suppliesGood dt => Sys2Proof.Machine.execSuppliesGood dt s
  | .perstNRelease dt => Sys2Proof.Machine.execPerstNRelease dt s
  | .csiLaneError dt port st => Sys2Proof.Machine.execCsiLaneError dt port st s
  | .plcaBeaconLoss dt => Sys2Proof.Machine.execPlcaBeaconLoss dt s

end Sys2Proof.Machine
end

