-- ==== Sys2Proof/Safety.lean ====
section
/-! DEFINITION. What a state in good order is: canonical maps, and the states in which the device is at rest; the
conditions on the dictionary under which a write is admitted. Claims are stated in these terms. -/

namespace Sys2Proof.Machine

/-! ## Canonical maps -/

/-- Keys rise strictly from a lower bound. -/
def rising : Nat → List Nat → Bool
  | _, [] => true
  | b, k :: r => b ≤ k && rising (k + 1) r

/-- Keys rise strictly and no entry holds what an unlisted key reads as. -/
def mapWf {α : Type} [BEq α] (d : α) (m : Map α) : Bool := rising 0 (m.map (·.1)) && m.all (fun e => !(e.2 == d))

/-- The memory is in its canonical form (log entry 4): DRAM, Millpond and host bytes, and the compression codes. -/
def Memory.wf (m : MemSt) : Bool :=
  mapWf 0 m.dram && mapWf 0 m.millpond && mapWf 0 m.host && mapWf 0 m.metaDram && mapWf 0 m.metaMill

/-! ## A device at rest (R72, R80, R86, R105) -/

/-- Without supplies, in power-on reset, or stopped by the REFCLK check. -/
def Phase.resting : Phase → Bool
  | .unpowered | .held | .clockFail => true
  | .starting | .warmHeld | .rom | .running => false

/-- The objects by which anything runs, each at the value it has at rest. -/
def State.restObjects (s : State) : Bool :=
  s.get Od.TICK_EN == 0 && s.get Od.BOOT_STATE == 0 &&
  (List.range 4).all (fun p => s.get (Od.LINK_STATE p) == 0) &&
  (List.range 8).all (fun i => s.get (Od.PD_STATE (3 + i)) == 0) &&
  (List.range 4).all (fun p => s.get (Od.PIPE_EN p) == 0) &&
  (List.range 8).all (fun k => s.get (Od.SV_ENABLE k) == 0) &&
  (List.range 16).all (fun i => s.get (Od.IS_EN i) == 0) &&
  (List.range 4).all (fun p => s.get (Od.CSI_EN p) == 0) &&
  s.get (Od.LP_STATE 0) == 0 && s.get (Od.LP_STATE 1) == 0

/-- Nothing is under way: no job, pipe, operation, transfer, session or verification, and no link is up. -/
def State.idle (s : State) : Bool :=
  !s.boot.pcieUp && s.boot.verifying.isNone && s.qs.jobs.isEmpty && s.qs.held.isEmpty && s.ops.isEmpty &&
  s.pipes.isEmpty && s.serving.isEmpty && s.sched.running.isEmpty && s.sched.incoming.isEmpty &&
  s.vision.works.isEmpty && s.raster.kernels.isEmpty && s.bap.sessions.isEmpty && s.bap.waiting.isEmpty &&
  s.leat == Reset.leat && s.wheel == Reset.wheel && s.tick.pin == .highZ && s.tap.taken == false

/-- The device is at rest and has put nothing on its interfaces beyond `o`. -/
def State.atRest (s : State) (o : List Out) : Prop :=
  s.boot.phase.resting = true ∧ s.restObjects = true ∧ s.idle = true ∧ s.out = o

/-! ## Terms of the claims -/

/-- A command answers a next state with a property. -/
def Completes (r : Res) (P : State → Prop) : Prop := ∃ t, r = .next t ∧ P t

/-- A write of a value reaches an object: the path is up, the checks 1 to 6 of R23 pass, no lock and no Governor hold
stands against it (R57, R353). -/
def State.admits (s : State) (w : WReq) (k : Nat) : Prop :=
  s.pathUp w.via = true ∧ s.writeCode w.via (k / 256) (k % 256) w.ty w.size w.val = Ab.OK ∧
  (isCommand k && s.commandsHeld) = false ∧
  match lookup (k / 256) (k % 256) with
  | .ok r => s.locked r k = false
  | .error _ => False

/-- A write completes: it is answered with OK, and the state has a property. -/
def WriteCompletes (r : Res) (w : WReq) (k : Nat) (P : State → Prop) : Prop :=
  Completes r (fun t => (∃ h, Out.answer w.via k Ab.OK h ∈ t.out) ∧ P t)

/-- A frame carries the request `r`, which is neither discarded nor a duplicate, and is accepted outside a session or under
the session `x` with its counts moved on; nothing is owed to its node (R34, R37, R42). -/
def State.accepts (s : State) (f : BapFrame) (r : BapReq) (x : Option Session) : Prop :=
  s.netUp = true ∧ 8 ≤ f.bytes.length ∧ s.addressed f = true ∧ discarded f = false ∧ requestOf f = r ∧
  (∀ k, mget s.bap.kept r.src = some k → sameRequest k r = false) ∧ (∀ w ∈ s.bap.waiting, w.node ≠ r.src) ∧
  (if r.auth then x.isSome = true ∧ s.sessionFor r = x else x = none)

/-- The command of a started job has taken effect with a status: its list goes on, or the job has finished with the status
and its `DETAIL`, where an empty one leaves what a band-out layer left (R303); the flags `fl` joined the job's (R140, R144,
R149, R207). -/
def State.ends (t : State) (j : Job) (status : Nat) (detail : List Byte) (fl : Nat) : Prop :=
  ∃ k, t.job j.id = some k ∧ k.flags = j.flags ||| fl ∧ k.blocked = false ∧
    (if status = St.OK ∧ j.inList = true ∧ j.taken + 1 < j.listCount
     then k.phase = .started ∧ k.taken = j.taken + 1
     else k.phase = .finished ∧ k.status = status ∧
       k.detail = padTo 16 (if status = St.OK ∧ detail = [] then j.detail else detail))

/-- A started job on a queue of an engine (R108 code) takes its next command, of an opcode: the state `u`, the job and the
64 bytes of the command. -/
def State.takes (s : State) (id : JobId) (eng op : Nat) (u : State) (j : Job) (c : List Byte) : Prop :=
  engineOf id.q.val = eng ∧ s.takeCmd id op = .cmd u j c

/-- The device's own translation is off, no block is compressed and no retraining runs: a virtual address of client 0 below the
usable size is its DRAM address (R111, R116, R126). -/
def State.plain (u : State) (cl : Nat) : Prop :=
  cl = 0 ∧ u.on (Od.XLAT_EN 0) = false ∧ u.opRunning .memTrain = false ∧ ∀ a, u.code (.dram a) = 0

/-- An edge of the tick source at `at_` is a tick: the first 2.5 ms or more after TICK_EN was set, a later one 2.5 ms or more after
the tick before (R14, R17). -/
def State.ticksAt (s : State) (at_ : Nat) : Prop :=
  if s.tick.since = 0 then s.tick.enAt + 2500000 ≤ at_ else s.tB + s.get Od.TICK_TS + 2500000 ≤ at_

/-- A pipe that is not stopping begins its next frame at `at_` (R300, R313). -/
def State.beginsFrame (s : State) (p at_ : Nat) : Prop :=
  s.framing p = true ∧ (s.pipe p).stopping = false ∧
    (s.pipe p).tF + ceilDiv (s.frameNs p).1 (s.frameNs p).2 ≤ at_

/-- Memory and objects are as in another state. -/
def State.sameStore (t u : State) : Prop := t.mem = u.mem ∧ t.od = u.od ∧ t.dom = u.dom

end Sys2Proof.Machine

namespace Sys2Proof

open Machine

/-- The commands that can end a rest: the release of PORST_N, and the test port (R67, R372). -/
def Instr.wakes : Instr → Bool
  | .porstNRise .. | .tapReset .. | .extest .. | .samplePreload .. | .idcode .. | .clamp .. | .highz ..
  | .extestPulse .. | .extestTrain .. | .strapRead .. | .bandCrc .. | .outchkLoop .. | .bypass .. => true
  | _ => false

/-- The object that a command writes, with its time and the write: none for the other commands. -/
def Instr.objectWrite : Instr → Option (Nat × Nat × WReq)
  | .tickEnWrite dt w => some (dt, Od.TICK_EN, w)
  | .tickSrcWrite dt w => some (dt, Od.TICK_SRC, w)
  | .genPeriodNsWrite dt w => some (dt, Od.GEN_PERIOD_NS, w)
  | .nodeIdWrite dt w => some (dt, Od.NODE_ID, w)
  | .dictWrite dt idx sub w => some (dt, idx * 256 + sub, w)
  | .release dt slot w => some (dt, Od.RELEASE slot.val, w)
  | .store dt w => some (dt, Od.STORE, w)
  | .erase dt w => some (dt, Od.ERASE, w)
  | .warmReset dt w => some (dt, Od.WARM_RESET, w)
  | .fwLoad dt w => some (dt, Od.FW_LOAD, w)
  | .pdReqWrite dt d w => some (dt, Od.PD_REQ d.val, w)
  | .pllReqMhzWrite dt p w => some (dt, Od.PLL_REQ_MHZ_CPLL + p.val, w)
  | .engineReset dt w => some (dt, Od.ENGINE_RESET, w)
  | .clientReset dt w => some (dt, Od.CLIENT_RESET, w)
  | .memRateReqWrite dt w => some (dt, Od.MEM_RATE_REQ, w)
  | .memTrain dt w => some (dt, Od.MEM_TRAIN, w)
  | .xlatRootWrite dt n w => some (dt, Od.XLAT_ROOT n.val, w)
  | .xlatEnWrite dt n w => some (dt, Od.XLAT_EN n.val, w)
  | .xlatInval dt n w => some (dt, Od.XLAT_INVAL n.val, w)
  | .repartition dt w => some (dt, Od.REPARTITION, w)
  | .qEnableWrite dt q w => some (dt, Od.Q_ENABLE q.val, w)
  | .clCrHeadWrite dt n w => some (dt, Od.CL_CR_HEAD n.val, w)
  | .clCrEnWrite dt n w => some (dt, Od.CL_CR_EN n.val, w)
  | .isEnWrite dt k w => some (dt, Od.IS_EN k.val, w)
  | .wheelLoad dt w => some (dt, Od.WHEEL_LOAD, w)
  | .wheelUnload dt w => some (dt, Od.WHEEL_UNLOAD, w)
  | .svEnableWrite dt k w => some (dt, Od.SV_ENABLE k.val, w)
  | .stClear dt k w => some (dt, Od.ST_CLEAR k.val, w)
  | .pipeIfWrite dt p w => some (dt, Od.PIPE_IF p.val, w)
  | .linkTrain dt p w => some (dt, Od.LINK_TRAIN p.val, w)
  | .pipeEnWrite dt p w => some (dt, Od.PIPE_EN p.val, w)
  | .casForm dt w => some (dt, Od.CAS_FORM, w)
  | .casDissolve dt w => some (dt, Od.CAS_DISSOLVE, w)
  | .govKey dt w => some (dt, Od.GOV_KEY, w)
  | .scareKey dt w => some (dt, Od.SCARE_KEY, w)
  | .scareDisable dt w => some (dt, Od.SCARE_DISABLE, w)
  | .scareLock dt w => some (dt, Od.SCARE_LOCK, w)
  | .selftest dt w => some (dt, Od.SELFTEST, w)
  | _ => none

end Sys2Proof
end

