-- ==== Sys2Proof/Certificates/Slice0/Obligations.lean ====
section
/-! DEFINITION. The statements for the provers. A command's conditions are those of the state once its `dt` ns have passed. -/

open Sys2Proof Sys2Proof.Machine

/-! ## The queue, rest and reset -/

/-- A step takes the command at the front of the queue and is that command's effect with the queue's rest. With no command
waiting the block idles: the model's choice (log entry 17). -/
def Obligations.StepTakesTheFrontCommand : Prop :=
  (∀ (s : State) (c : Instr) (rest : List Instr), s.pending = c :: rest → step s = exec c { s with pending := rest }) ∧
  (∀ s : State, s.pending = [] → step s = .next s)

/-- After reset the device is at rest: no engine runs, no link is up and nothing has been put on an interface. -/
def Obligations.ResetIsAtRest : Prop := State.reset.atRest [] ∧ State.reset.pending = [] ∧ Memory.wf State.reset.mem = true

/-- A device without supplies, in power-on reset or stopped by the REFCLK check stays at rest, whatever command comes but the
release of PORST_N and the test port: nothing runs and nothing leaves on an interface. -/
def Obligations.RestIsKept : Prop :=
  ∀ (s t : State) (o : List Out), s.atRest o → (∀ c ∈ s.pending, c.wakes = false) → step s = .next t →
    t.atRest o ∧ ∀ c ∈ t.pending, c.wakes = false

/-! ## Writes of objects: the checks of R23 -/

/-- A write refused by a check of R23 changes no object but the count of AUTH refusals, and its code is answered. A write that
differs from a locked object's value has no effect: it is answered LOCKED, counted, and posts one class 7, code 1 event; a write
of the same value completes with OK. (Objects of fixed size that lock are these two.) -/
def Obligations.RefusedAndLockedWritesChangeNothing : Prop :=
  (∀ (s : State) (i : Instr) (dt k c : Nat) (w : WReq), i.objectWrite = some (dt, k, w) →
      (s.advance dt).pathUp w.via = true →
      (s.advance dt).writeCode w.via (k / 256) (k % 256) w.ty w.size w.val = c → c ≠ Ab.OK →
      exec i s = .next (((s.advance dt).countBap w.via c).emit (.answer w.via k c 0))) ∧
  (∀ (s : State) (i : Instr) (dt k : Nat) (w : WReq), k = Od.SCARE_LOCK ∨ k = Od.CFG_LOCK →
      i.objectWrite = some (dt, k, w) → (s.advance dt).pathUp w.via = true →
      (s.advance dt).writeCode w.via (k / 256) (k % 256) w.ty w.size w.val = Ab.OK → s.written.contains k = true →
      (s.get k = w.val → exec i s = .next (((s.advance dt).countBap w.via Ab.OK).emit (.answer w.via k Ab.OK 0))) ∧
      (s.get k ≠ w.val → Completes (exec i s) fun t =>
        t.get k = s.get k ∧ t.get Od.LOCK_VIOL = min (countLimit Od.LOCK_VIOL) (s.get Od.LOCK_VIOL + 1) ∧
        t.get Od.EVT_NEXT = (s.get Od.EVT_NEXT + 1) % 2 ^ 32 ∧
        (∃ e ∈ t.events, e.2.cls = 7 ∧ e.2.code = 1) ∧ Out.answer w.via k Ab.LOCKED 0 ∈ t.out))

/-- The checks of R23 come in the order of existence, privileges, domain, access kind, type, size and range. -/
def Obligations.WriteChecksComeInOrder : Prop :=
  ∀ (s : State) (w : WReq) (k : Nat),
    let c := s.writeCode w.via (k / 256) (k % 256) w.ty w.size w.val
    match lookup (k / 256) (k % 256) with
    | .error e => c = e ∧ (e = Ab.NO_OBJECT ∨ e = Ab.NO_SUB)
    | .ok r =>
      if s.mayAccess w.via k true false = false then c = Ab.AUTH
      else if s.domCode (domainOf (k / 256) (k % 256)) ≠ Ab.OK then c = s.domCode (domainOf (k / 256) (k % 256))
      else if r.acc = .ro ∨ r.acc = .rc then c = Ab.READ_ONLY
      else if r.ty = .dom ∨ w.ty ≠ r.ty.code then c = Ab.TYPE
      else if w.size ≠ r.ty.size ∨ 2 ^ (8 * r.ty.size) ≤ w.val ∨ (r.ty = .bool ∧ 1 < w.val) ∨
          r.rng.ok (r.rng.filter w.val) = false ∨ s.rangeOk k (r.rng.filter w.val) = false then c = Ab.RANGE
      else c = Ab.OK

/-! ## Writes of objects: what each does -/

/-- DICT_WRITE of an object whose write does nothing but hold its value completes: the object reads the value, every other
object but the count of executed BAP requests, and every byte of memory, is as before. NODE_ID takes effect after the answer and
a change ends every session; RELEASE of a completed or unused slot whose handle is named frees the slot, checked in the order
RANGE, HANDLE_STALE, BUSY. (What of this is the model's choice: log entry 25.) -/
def Obligations.ObjectWritesHoldTheValue : Prop :=
  (∀ (s : State) (dt idx sub : Nat) (w : WReq) (r : Row), sub < 256 → (s.advance dt).admits w (idx * 256 + sub) →
      lookup idx sub = .ok r → idx * 256 + sub ≠ Od.NODE_ID → idx * 256 + sub ≠ Od.WARM_RESET →
      (∀ (u : State) (v : Nat), u.writeEffect w.via (idx * 256 + sub) v = .ok (u.set (idx * 256 + sub) v)) →
      WriteCompletes (exec (.dictWrite dt idx sub w) s) w (idx * 256 + sub) fun t =>
        t.get (idx * 256 + sub) = r.rng.filter w.val % 2 ^ widthOf (idx * 256 + sub) ∧
        (∀ j, j ≠ idx * 256 + sub → j ≠ Od.BAP_RX_OK → t.get j = s.get j) ∧ t.mem = s.mem ∧ t.dom = s.dom) ∧
  (∀ (s : State) (dt : Nat) (w : WReq) (slot : Fin 256),
      ((s.advance dt).admits w Od.NODE_ID → WriteCompletes (exec (.nodeIdWrite dt w) s) w Od.NODE_ID fun t =>
        t.get Od.NODE_ID = w.val ∧ (w.val ≠ s.get Od.NODE_ID → t.bap.sessions = []) ∧
        ∀ j, j ≠ Od.NODE_ID → j ≠ Od.BAP_RX_OK → t.get j = s.get j) ∧
      ((s.advance dt).admits w (Od.RELEASE slot.val) →
        if w.val / 2 ^ 24 ≠ 0 ∨ w.val % 256 ≠ slot.val then
          exec (.release dt slot w) s = .next ((s.advance dt).emit (.answer w.via (Od.RELEASE slot.val) Ab.RANGE 0))
        else if w.val / 256 % 2 ^ 16 ≠ s.gen slot.val then
          exec (.release dt slot w) s = .next ((s.advance dt).emit (.answer w.via (Od.RELEASE slot.val) Ab.HANDLE_STALE 0))
        else if s.get (Od.STATE slot.val) = 1 then
          exec (.release dt slot w) s = .next ((s.advance dt).emit (.answer w.via (Od.RELEASE slot.val) Ab.BUSY 0))
        else exec (.release dt slot w) s = .next ((((s.advance dt).set (Od.STATE slot.val) 0).countBap w.via Ab.OK).emit
          (.answer w.via (Od.RELEASE slot.val) Ab.OK 0))))

/-- TICK_SRC and GEN_PERIOD_NS take effect at the next switch-over tick, or at once while ticks are stopped; TICK_EN starts
ticks, and stops them where no Waterwheel table is in force, which releases what was pending. WHEEL_UNLOAD takes the table out
of force at once while ticks are stopped, else at the next tick; CAS_DISSOLVE of a master leaves the cascade. (What of this is
the model's choice: log entry 48.) -/
def Obligations.TickWheelAndCascadeWritesComplete : Prop :=
  (∀ (s : State) (dt : Nat) (w : WReq),
      ((s.advance dt).admits w Od.TICK_SRC → (s.inCascade && s.on Od.CAS_ROLE) = false →
        WriteCompletes (exec (.tickSrcWrite dt w) s) w Od.TICK_SRC fun t =>
          t.get Od.TICK_SRC = w.val ∧
          if s.on Od.TICK_EN then t.tick.pendSrc = s.tick.pendSrc ++ [(w.val, s.now + dt)] ∧ t.tick.src = s.tick.src
          else t.tick.src = w.val) ∧
      ((s.advance dt).admits w Od.GEN_PERIOD_NS → WriteCompletes (exec (.genPeriodNsWrite dt w) s) w Od.GEN_PERIOD_NS fun t =>
          t.get Od.GEN_PERIOD_NS = w.val ∧
          if s.on Od.TICK_EN then t.tick.pendPeriod = s.tick.pendPeriod ++ [(w.val, s.now + dt)] ∧ t.tick.genPeriod = s.tick.genPeriod
          else t.tick.genPeriod = w.val) ∧
      ((s.advance dt).admits w Od.TICK_EN → s.selftesting = false →
        (w.val = 1 → s.on Od.TICK_EN = true ∨ s.opRunning .memTrain = false) →
        (w.val = 0 → s.on Od.TICK_EN = false ∨ s.wheel.table = none) →
        WriteCompletes (exec (.tickEnWrite dt w) s) w Od.TICK_EN fun t =>
          t.get Od.TICK_EN = w.val ∧
          (w.val = 1 → s.on Od.TICK_EN = false → t.tick.since = 0 ∧ t.tick.enAt = s.now + dt) ∧
          (w.val = 0 → s.on Od.TICK_EN = true → t.get Od.CUR_BUCKET = 0 ∧ t.tick.pendSrc = [] ∧ t.tick.pendPeriod = []))) ∧
  (∀ (s : State) (dt : Nat) (w : WReq),
      ((s.advance dt).admits w Od.WHEEL_UNLOAD → s.opRunning .wheelLoad = false → s.wheel.table.isSome = true →
        WriteCompletes (exec (.wheelUnload dt w) s) w Od.WHEEL_UNLOAD fun t =>
          if s.on Od.TICK_EN then t.wheel.table = s.wheel.table ∧ t.wheel.unloadAt.isSome = true
          else t.wheel.table = none ∧ t.get Od.WHEEL_ACTIVE = 0 ∧ t.get Od.WHEEL_LEN = 0) ∧
      ((s.advance dt).admits w Od.CAS_DISSOLVE → s.on Od.CAS_ROLE = false → s.inCascade = true →
        WriteCompletes (exec (.casDissolve dt w) s) w Od.CAS_DISSOLVE fun t =>
          t.get Od.CAS_STATE = 0 ∧ t.get Od.CAS_MEMBERS = 0 ∧ t.get Od.CAS_MASTER = 0xFF))

/-- The writes that start a long operation take a slot of the handle table, which reads RUNNING with a handle that names it and
no other use of it, and answer with the handle. PD_REQ opens a gated domain that is OFF and closes one that is ON where neither
its units' windows nor an enabled pipe nor a cascade holds it; PLL_REQ_MHZ and MEM_RATE_REQ hold their value where it is no less
than the admission clock, and a change to a running PLL is pending while ticks run. (What of this is the model's choice: log
entries 23, 49.) -/
def Obligations.OperationAndPowerWritesComplete : Prop :=
  (∀ (s : State) (i : Instr) (dt k slot : Nat) (w : WReq), i.objectWrite = some (dt, k, w) → (s.advance dt).admits w k →
      s.pickSlot = some slot →
      (k = Od.STORE ∧ s.opRunning .store = false) ∨
      (k = Od.ERASE ∧ s.opRunning .erase = false) ∨
      (k = Od.FW_LOAD ∧ s.opRunning .fwLoad = false ∧ s.on Od.TICK_EN = false ∧ s.get Od.BOOT_STATE = 3) ∨
      (k = Od.WHEEL_LOAD ∧ s.opRunning .wheelLoad = false) ∨
      (k = Od.MEM_TRAIN ∧ s.opRunning .memTrain = false ∧ s.selftesting = false ∧ s.on Od.TICK_EN = false ∧
        s.jobRunning = false) ∨
      (k = Od.REPARTITION ∧ s.opRunning .repartition = false ∧ s.opRunning .memTrain = false ∧ s.selftesting = false ∧
        s.wheel.table = none ∧ ((List.range 4).any s.pipeOn && s.bandChanges) = false ∧
        partsOk ((List.range 16).map s.stagedPart) = true) ∨
      (∃ p, p < 4 ∧ k = Od.LINK_TRAIN p ∧ s.opRunning (.linkTrain p) = false ∧ s.trainOk p = true) ∨
      (k = Od.CAS_FORM ∧ s.on Od.CAS_ROLE = false ∧ s.on Od.TICK_EN = true ∧ s.domOn 10 = true ∧
        (s.get Od.CAS_STATE = 0 ∨ s.get Od.CAS_STATE = 3)) ∨
      (k = Od.SELFTEST ∧ s.get Od.SELFTEST_SEL ≠ 0 ∧ s.selftesting = false ∧ s.on Od.TICK_EN = false ∧
        (List.range 4).any s.pipeOn = false ∧ s.jobRunning = false ∧
        (bitOf (s.get Od.SELFTEST_SEL) 2 = true → ∀ q < 128, s.on (Od.Q_ENABLE q) = false)) →
      Completes (exec i s) fun t =>
        let h := dictHandle ((s.gen slot + 1) % 2 ^ 16) slot
        Out.answer w.via k Ab.OK h ∈ t.out ∧ t.get (Od.HANDLE slot) = h ∧ t.get (Od.OPERATION slot) = k ∧
        t.get (Od.STATE slot) = 1 ∧ t.get (Od.PROGRESS slot) = 0 ∧ t.gen slot = (s.gen slot + 1) % 2 ^ 16 ∧
        ∃ o ∈ t.ops, o.slot.val = slot ∧ o.origin = w.via) ∧
  (∀ (s : State) (dt : Nat) (w : WReq) (d : Fin 8) (p : Fin 4),
      ((s.advance dt).admits w (Od.PD_REQ d.val) → s.running = true → s.pd (3 + d.val) ≠ 1 → s.pd (3 + d.val) ≠ 3 →
        (w.val = 0 → s.wheel.table = none) → (d.val = 6 → ∀ q < 4, s.on (Od.PIPE_EN q) = false) →
        (d.val = 7 → s.inCascade = false) →
        WriteCompletes (exec (.pdReqWrite dt d w) s) w (Od.PD_REQ d.val) fun t =>
          t.get (Od.PD_REQ d.val) = w.val ∧
          (w.val = 1 → s.get (Od.PD_REQ d.val) = 0 → s.pd (3 + d.val) = 0 → t.pd (3 + d.val) = 1) ∧
          (w.val = 0 → s.get (Od.PD_REQ d.val) = 1 → s.pd (3 + d.val) = 2 → t.pd (3 + d.val) = 3)) ∧
      ((s.advance dt).admits w (Od.PLL_REQ_MHZ_CPLL + p.val) → s.admClock p.val ≤ w.val →
        WriteCompletes (exec (.pllReqMhzWrite dt p w) s) w (Od.PLL_REQ_MHZ_CPLL + p.val) fun t =>
          t.get (Od.PLL_REQ_MHZ_CPLL + p.val) = w.val ∧
          (s.get (Od.PLL_MHZ p.val) ≠ 0 → s.get (Od.PLL_MHZ p.val) ≠ w.val → mget s.pwr.pllChanging p.val = none →
            s.on Od.TICK_EN = true → bitOf (t.get Od.FREQ_PENDING) p.val = true ∧
              t.get (Od.PLL_MHZ p.val) = s.get (Od.PLL_MHZ p.val))) ∧
      ((s.advance dt).admits w Od.MEM_RATE_REQ → s.opRunning .memTrain = false → s.selftesting = false →
        s.admClock 4 ≤ mpllMhz w.val → WriteCompletes (exec (.memRateReqWrite dt w) s) w Od.MEM_RATE_REQ fun t =>
          t.get Od.MEM_RATE_REQ = w.val ∧
          (s.get (Od.PLL_MHZ 4) ≠ 0 → s.get (Od.PLL_MHZ 4) ≠ mpllMhz w.val → mget s.pwr.pllChanging 4 = none →
            s.on Od.TICK_EN = true → bitOf (t.get Od.FREQ_PENDING) 4 = true)))

/-- XLAT_ROOT and XLAT_EN hold their value and a change discards the client's cached entries; a write of 1 to XLAT_INVAL
discards them. No byte of memory changes, and the entries of other clients stay. Q_ENABLE, CL_CR_EN and CL_CR_HEAD: a queue is
enabled where its owner's ring is, with its counts 0, and disabled where every submission is done; a ring is enabled with its
indices 0, and disabled where its client owns no enabled queue; the head moves within the records written. (What of this is the
model's choice: log entry 13.) -/
def Obligations.TranslationAndQueueWritesComplete : Prop :=
  (∀ (s : State) (i : Instr) (dt : Nat) (w : WReq) (n : Fin 64) (k : Nat),
      (i = .xlatRootWrite dt n w ∧ k = Od.XLAT_ROOT n.val) ∨ (i = .xlatEnWrite dt n w ∧ k = Od.XLAT_EN n.val) ∨
        (i = .xlatInval dt n w ∧ k = Od.XLAT_INVAL n.val ∧ w.val = 1) →
      (s.advance dt).admits w k →
      WriteCompletes (exec i s) w k fun t =>
        (k ≠ Od.XLAT_INVAL n.val → t.get k = w.val) ∧
        (k = Od.XLAT_INVAL n.val ∨ w.val ≠ s.get k → ∀ e ∈ t.mem.cache, e.1 / 2 ^ 24 ≠ n.val) ∧
        (∀ e ∈ s.mem.cache, e.1 / 2 ^ 24 ≠ n.val → e ∈ t.mem.cache) ∧ (∀ p, t.cell p = s.cell p)) ∧
  (∀ (s : State) (dt : Nat) (w : WReq) (q : Fin 128) (n : Fin 64),
      ((s.advance dt).admits w (Od.Q_ENABLE q.val) → s.get (Od.Q_ENABLE q.val) ≠ w.val →
        (w.val = 1 → s.on (Od.CL_CR_EN (s.get (Od.Q_OWNER q.val))) = true) →
        (w.val = 0 → s.get (Od.Q_TAIL q.val) = s.get (Od.Q_DONE q.val)) →
        WriteCompletes (exec (.qEnableWrite dt q w) s) w (Od.Q_ENABLE q.val) fun t =>
          t.get (Od.Q_ENABLE q.val) = w.val ∧
          (w.val = 1 → t.get (Od.Q_TAIL q.val) = 0 ∧ t.get (Od.Q_STARTED q.val) = 0 ∧ t.get (Od.Q_DONE q.val) = 0)) ∧
      ((s.advance dt).admits w (Od.CL_CR_EN n.val) → s.get (Od.CL_CR_EN n.val) ≠ w.val →
        (w.val = 0 → s.ownsEnabled n.val = false) →
        WriteCompletes (exec (.clCrEnWrite dt n w) s) w (Od.CL_CR_EN n.val) fun t =>
          t.get (Od.CL_CR_EN n.val) = w.val ∧
          (w.val = 1 → t.get (Od.CL_CR_TAIL n.val) = 0 ∧ t.get (Od.CL_CR_HEAD n.val) = 0)) ∧
      ((s.advance dt).admits w (Od.CL_CR_HEAD n.val) →
        subMod 32 w.val (s.get (Od.CL_CR_HEAD n.val)) ≤
          subMod 32 (s.get (Od.CL_CR_TAIL n.val)) (s.get (Od.CL_CR_HEAD n.val)) →
        WriteCompletes (exec (.clCrHeadWrite dt n w) s) w (Od.CL_CR_HEAD n.val) fun t =>
          t.get (Od.CL_CR_HEAD n.val) = w.val ∧ ∀ j, j ≠ Od.CL_CR_HEAD n.val → j ≠ Od.BAP_RX_OK → t.get j = s.get j))

/-- Ingest streams, serving sessions and structure slots: disabling gives up the open frame or the sequences; enabling under the
conditions of R167 or R232 starts at frame 0 or with every page free; ST_CLEAR of 1 empties a slot that no job holds. PIPE_IF of
a port no other pipe drives changes the interface and takes the link down; PIPE_EN of 0 lets the frame in progress end, and of 1
under the conditions of R317 starts the pipe at frame 0. (What of this is the model's choice: log entries 26, 40.) -/
def Obligations.StreamSlotAndPipeWritesComplete : Prop :=
  (∀ (s : State) (dt : Nat) (w : WReq) (i : Fin 16) (k : Fin 8) (x : Fin 4),
      ((s.advance dt).admits w (Od.IS_EN i.val) →
        (w.val = 1 → s.get (Od.IS_KIND i.val) ≠ 0 ∧
          streamFmtOk (s.get (Od.IS_KIND i.val)) (s.get (Od.IS_FMT i.val)) (s.get (Od.IS_PACK i.val)) = true ∧
          s.pitchOk i.val = true ∧ (s.get (Od.IS_KIND i.val) = 1 → s.on (Od.CSI_EN (s.get (Od.IS_PORT i.val))) = true) ∧
          s.streamClash i.val = false ∧ s.streamFlagOk i.val (Od.IS_FLAG i.val) = true ∧
          s.streamFlagOk i.val (Od.IS_REL_FLAG i.val) = true) →
        WriteCompletes (exec (.isEnWrite dt i w) s) w (Od.IS_EN i.val) fun t =>
          t.get (Od.IS_EN i.val) = w.val ∧ (t.stream i.val).frame = none ∧
          (w.val = 1 → (t.stream i.val).f = 0 ∧ t.get (Od.IS_FRAMES i.val) = 0 ∧
            t.get (Od.IS_BUF_STRIDE i.val) = ceilDiv (s.streamBytes i.val) 65536 * 65536 % 2 ^ widthOf (Od.IS_BUF_STRIDE i.val))) ∧
      ((s.advance dt).admits w (Od.SV_ENABLE k.val) →
        (w.val = 0 → s.get (Od.Q_TAIL (s.get (Od.SV_QUEUE k.val))) = s.get (Od.Q_DONE (s.get (Od.SV_QUEUE k.val)))) →
        (w.val = 1 → s.svQueueOk k.val = true ∧ ({ s.advance dt with out := [] } : State).svStateOk k.val = true ∧
          ({ s.advance dt with out := [] } : State).svPoolOk k.val = true ∧
          ∃ u ds, ({ s.advance dt with out := [] } : State).svDescs k.val = (u, some ds) ∧
            kvBytesOf ds * s.get (Od.SV_PAGE_TOKENS k.val) ≤ 65536) →
        WriteCompletes (exec (.svEnableWrite dt k w) s) w (Od.SV_ENABLE k.val) fun t =>
          t.get (Od.SV_ENABLE k.val) = w.val ∧ (t.serve k.val).seqs = [] ∧
          (w.val = 0 → (t.serve k.val).free = []) ∧
          (w.val = 1 → (t.serve k.val).free = List.range (s.get (Od.SV_POOL_PAGES k.val)) ∧
            t.get (Od.SV_FREE_PAGES k.val) = s.get (Od.SV_POOL_PAGES k.val) % 2 ^ widthOf (Od.SV_FREE_PAGES k.val))) ∧
      ((s.advance dt).admits w (Od.ST_CLEAR x.val) → w.val = 1 →
        ({ s.advance dt with out := [] } : State).slotHeld x.val none = false →
        WriteCompletes (exec (.stClear dt x w) s) w (Od.ST_CLEAR x.val) fun t =>
          mget t.solver.slots x.val = none ∧ t.get (Od.ST_STATE x.val) = 0)) ∧
  (∀ (s : State) (dt : Nat) (w : WReq) (p : Fin 4),
      ((s.advance dt).admits w (Od.PIPE_IF p.val) → s.on (Od.PIPE_EN p.val) = false → s.get (Od.PIPE_IF p.val) ≠ w.val →
        ((portOfIf w.val).isSome = true → ∀ q < 4, q ≠ p.val → portOfIf (s.get (Od.PIPE_IF q)) ≠ portOfIf w.val) →
        WriteCompletes (exec (.pipeIfWrite dt p w) s) w (Od.PIPE_IF p.val) fun t =>
          t.get (Od.PIPE_IF p.val) = w.val ∧ t.get (Od.LINK_STATE p.val) = 0 ∧
          t.get (Od.UNDERRUN_MODE p.val) = underrunDefault w.val) ∧
      ((s.advance dt).admits w (Od.PIPE_EN p.val) → s.selftesting = false → w.val = 0 → s.on (Od.PIPE_EN p.val) = true →
        WriteCompletes (exec (.pipeEnWrite dt p w) s) w (Od.PIPE_EN p.val) fun t =>
          t.get (Od.PIPE_EN p.val) = 0 ∧ (t.pipe p.val).stopping = true ∧
          (t.pipe p.val).scanning = (s.pipe p.val).scanning ∧ (t.pipe p.val).layers = (s.pipe p.val).layers) ∧
      ((s.advance dt).admits w (Od.PIPE_EN p.val) → s.selftesting = false → w.val = 1 → s.on (Od.PIPE_EN p.val) = false →
        s.opRunning .memTrain = false → s.pipeEnOk p.val = true →
        WriteCompletes (exec (.pipeEnWrite dt p w) s) w (Od.PIPE_EN p.val) fun t =>
          t.get (Od.PIPE_EN p.val) = 1 ∧ t.get (Od.FRAME_COUNT p.val) = 0 ∧ (t.pipe p.val).scanning = true ∧
          (t.pipe p.val).tF = s.now + dt ∧ (t.pipe p.val).stopping = false))

/-- The firmware's 0x4D11 in the open window services the Governor, and any other write of GOV_KEY is an early or wrong service
that expires it (R352). SCARE_KEY 0x5EED starts the Scarecrow, or services it in its window; SCARE_DISABLE stops it only with
0x3A7C and, within 1 ms, 0xC5B2; SCARE_LOCK of 1 starts it and keeps it. (What of this is the model's choice: log entry 29.) -/
def Obligations.WatchdogWritesComplete : Prop :=
  (∀ (s : State) (dt : Nat) (w : WReq), w.via = .fw → (s.advance dt).admits w Od.GOV_KEY →
      if w.val = 0x4D11 ∧ (s.advance dt).governorOpen = true then
        WriteCompletes (exec (.govKey dt w) s) w Od.GOV_KEY fun t =>
          t.watch.govAt = s.now + dt ∧ t.watch.govTicks = 0 ∧ t.get Od.GOV_LAST_TS = (s.advance dt).ts ∧
          t.get Od.GOV_EARLY = s.get Od.GOV_EARLY ∧ t.get Od.GOV_EXPIRIES = s.get Od.GOV_EXPIRIES
      else WriteCompletes (exec (.govKey dt w) s) w Od.GOV_KEY fun t =>
          t.get Od.GOV_EARLY = min (countLimit Od.GOV_EARLY) (s.get Od.GOV_EARLY + 1) ∧
          t.get Od.GOV_EXPIRIES = min (countLimit Od.GOV_EXPIRIES) (s.get Od.GOV_EXPIRIES + 1) ∧ t.get Od.GOV_HOLD = 1) ∧
  (∀ (s : State) (dt : Nat) (w : WReq),
      ((s.advance dt).admits w Od.SCARE_KEY → w.val = 0x5EED → (s.scareRuns = true → (s.advance dt).scareOpen = true) →
        WriteCompletes (exec (.scareKey dt w) s) w Od.SCARE_KEY fun t =>
          t.get Od.SCARE_EN = (if s.on Od.SCARE_EN then s.get Od.SCARE_EN else 1) ∧
          (s.scareRuns = true → t.get Od.SCARE_STAGE = 0) ∧
          (s.on Od.SCARE_EN = false ∨ s.scareRuns = true →
            t.watch.scareAt = s.now + dt ∧ t.watch.scareMs = s.get Od.SCARE_PERIOD_MS) ∧
          t.get Od.SCARE_EXPIRIES = s.get Od.SCARE_EXPIRIES) ∧
      ((s.advance dt).admits w Od.SCARE_DISABLE → s.on Od.SCARE_LOCK = false → w.val = 0x3A7C →
        WriteCompletes (exec (.scareDisable dt w) s) w Od.SCARE_DISABLE fun t =>
          t.watch.scareArm = some (s.now + dt) ∧ t.get Od.SCARE_EN = s.get Od.SCARE_EN) ∧
      (∀ a, (s.advance dt).admits w Od.SCARE_DISABLE → s.on Od.SCARE_LOCK = false → w.val = 0xC5B2 →
        s.watch.scareArm = some a → s.now + dt ≤ a + 1000000 → s.on Od.SCARE_EN = true →
        WriteCompletes (exec (.scareDisable dt w) s) w Od.SCARE_DISABLE fun t =>
          t.get Od.SCARE_EN = 0 ∧ ∃ e ∈ t.events, e.2.cls = 0 ∧ e.2.code = 5) ∧
      ((s.advance dt).admits w Od.SCARE_LOCK → WriteCompletes (exec (.scareLock dt w) s) w Od.SCARE_LOCK fun t =>
          t.get Od.SCARE_LOCK = w.val ∧ (w.val = 1 → t.get Od.SCARE_EN = 1) ∧ Od.SCARE_LOCK ∈ t.written))

/-! ## Power, boot and resets -/

/-- PORST_N low leaves every object but those of reset domain None at its default, AON ON, CTRL and MEM OPENING and the gated
domains OFF, no job, session or operation, DRAM and the Millpond empty, and TICK_OUT high-impedance. (The model's memory reads 0
there: log entry 4.) -/
def Obligations.PowerOnResetLeavesDefaults : Prop :=
  ∀ (s : State) (dt : Nat), s.boot.phase ≠ .unpowered → Completes (exec (.porstNFall dt) s) fun t =>
    t.boot.phase = .held ∧ t.boot.porst = false ∧
    (∀ k r, rowOfKey k = some r → (∀ d < 11, k ≠ Od.PD_STATE d) → k ≠ Od.RESET_CAUSE →
      (r.rdom ≠ .never → t.get k = constDefault k ∧ t.getDom k = []) ∧
      (r.rdom = .never → t.get k = s.get k ∧ t.getDom k = s.getDom k)) ∧
    (∀ d < 11, t.pd d = if d = 0 then 2 else if d ≤ 2 then 1 else 0) ∧ t.get Od.RESET_CAUSE = 0 ∧
    t.qs.jobs = [] ∧ t.bap.sessions = [] ∧ t.ops = [] ∧ t.events = [] ∧ t.mem.dram = [] ∧ t.mem.millpond = [] ∧
    t.mem.host = s.mem.host ∧ t.tick.pin = .highZ

/-- The release of PORST_N latches the straps, restarts the timestamp and begins the boot, waits while WRST_N is low, or stops
at the REFCLK check; on a board outside R85 the behaviour is not defined. With nothing stored, the straps give the defaults of
R70. (What of this is the model's choice: log entries 22, 50.) -/
def Obligations.ReleaseLatchesStraps : Prop :=
  ∀ (s : State) (dt : Nat) (b : Board), s.boot.phase ≠ .unpowered → s.boot.porst = false → s.tap.taken = false →
    (offLimits b = true → exec (.porstNRise dt b) s = .fault .boardViolatesR85) ∧
    (offLimits b = false → Completes (exec (.porstNRise dt b) s) fun t =>
      t.boot.porst = true ∧ t.tB = s.now + dt ∧ t.ts = 0 ∧ t.get Od.STRAP_RAW = b.cfg.toNat ∧
      t.boot.phase = (if refclkCheck b.cfg.toNat b.measuredKHz then
        (if s.boot.wrst then .starting else .warmHeld) else .clockFail) ∧
      (s.boot.store = none →
        t.get Od.NODE_ID = bitsOf b.cfg.toNat 3 3 ∧ t.get Od.PLCA_COORD = bitsOf b.cfg.toNat 12 1 ∧
        t.get Od.TICK_SRC = (if bitsOf b.cfg.toNat 9 2 = 0 then 2 else 0) ∧
        t.get Od.TICK_OUT_EN = (if bitOf b.cfg.toNat 2 then 0 else 1) ∧
        t.get Od.CAS_ROLE = (if bitOf b.cfg.toNat 2 then 1 else 0) ∧
        t.get Od.SCARE_EN = (if bitOf b.cfg.toNat 8 then 1 else 0)) ∧
      t.tick.src = t.get Od.TICK_SRC)

/-- SUPPLY_LOSS takes the device to no supplies, with DRAM lost and the test logic reset; SUPPLIES_GOOD brings AON up with
PORST_N low. GPIO_STRAP_APPLY, PERST_N_RELEASE and PLCA_BEACON_LOSS change what they name and no object or byte of memory. (What
of this is the model's choice: log entries 4, 22, 50.) -/
def Obligations.SuppliesAndBoardEventsComplete : Prop :=
  (∀ (s : State) (dt : Nat),
      Completes (exec (.supplyLoss dt) s) (fun t =>
        t.boot.phase = .unpowered ∧ t.boot.porst = false ∧ t.mem.dram = [] ∧ t.mem.millpond = [] ∧ t.qs.jobs = [] ∧
        t.tap = Reset.tap ∧ t.get Od.BSCAN_IR = 2 ∧ t.boot.store = s.boot.store) ∧
      (s.boot.phase = .unpowered → Completes (exec (.suppliesGood dt) s) fun t =>
        t.boot.phase = .held ∧ t.boot.porst = false ∧ t.pd 0 = 2 ∧ t.mem = s.mem)) ∧
  (∀ (s : State) (dt : Nat),
      (s.boot.phase = .running → s.tB + 20000000 ≤ s.now + dt → Completes (exec (.gpioStrapApply dt) s) fun t =>
        t.boot.gpioApplied = true ∧ (∀ k, t.get k = s.get k) ∧ t.mem = s.mem) ∧
      (Completes (exec (.perstNRelease dt) s) fun t =>
        t.boot.perst = true ∧ (s.strapPcie = true → s.alive = true → t.boot.pcieUp = true) ∧
        (∀ k, t.get k = s.get k) ∧ t.mem = s.mem) ∧
      (s.boot.phase = .running → s.on Od.PLCA_EN = true → 1 ≤ s.get Od.NODE_ID → s.get Od.NODE_ID ≤ 7 →
        Completes (exec (.plcaBeaconLoss dt) s) fun t =>
          t.boot.plca = false ∧ (∀ k, t.get k = s.get k) ∧ t.mem = s.mem))

/-- WRST_N low, and a write of 0x7A3C to WARM_RESET once answered, end every session, operation and job, keep DRAM in self-
refresh and the event log, and leave objects of reset domains Power-on and None as they are; WRST_N high lets the device boot.
(What of this is the model's choice: log entries 22, 50.) -/
def Obligations.WarmResetKeepsDramAndLog : Prop :=
  ∀ (s : State) (dt : Nat) (w : WReq),
    let P := fun (cause : Nat) (ph : Phase) (t : State) =>
      t.boot.phase = ph ∧ t.get Od.RESET_CAUSE = cause ∧ t.qs.jobs = [] ∧ t.bap.sessions = [] ∧ t.ops = [] ∧
      t.events = s.events ∧ t.mem.dram = s.mem.dram ∧ t.mem.millpond = [] ∧ t.mem.refresh = .asleep (s.now + dt) ∧
      (∀ k r, rowOfKey k = some r → (∀ d < 11, k ≠ Od.PD_STATE d) → k ≠ Od.RESET_CAUSE →
        r.rdom = .powerOn ∨ r.rdom = .never → t.get k = s.get k)
    (s.boot.phase.resting = false → Completes (exec (.wrstNFall dt) s) (P 1 .warmHeld)) ∧
    ((s.advance dt).admits w Od.WARM_RESET →
      WriteCompletes (exec (.warmReset dt w) s) w Od.WARM_RESET (P 2 .starting)) ∧
    (s.boot.phase = .warmHeld → Completes (exec (.wrstNRise dt) s) fun t =>
      t.boot.phase = .starting ∧ t.boot.wrst = true ∧ t.mem = s.mem ∧ ∀ k, t.get k = s.get k)

/-- ENGINE_RESET of a powered engine increments its recovery epoch and leaves none of its jobs queued or started; one class 1,
code 1 event is posted. CLIENT_RESET and a function-level reset disable the client's queues, leave none of its jobs queued or
started, return its Client objects to their defaults and discard its cached translation entries; one class 1, code 2 event is
posted. (What of this is the model's choice: log entries 27, 29.) -/
def Obligations.EngineAndClientResetsClear : Prop :=
  (∀ (s : State) (dt : Nat) (w : WReq), (s.advance dt).admits w Od.ENGINE_RESET → w.val ≤ 5 → s.engineCode w.val = Ab.OK →
      (w.val = 4 → ∀ p < 4, s.pipeOn p = false) →
      WriteCompletes (exec (.engineReset dt w) s) w Od.ENGINE_RESET fun t =>
        t.get (Od.RECOV_EPOCH w.val) = (s.get (Od.RECOV_EPOCH w.val) + 1) % 2 ^ 16 ∧
        (∀ id j, engineOf id.q.val = w.val → t.job id = some j → j.phase = .finished) ∧
        (∃ e ∈ t.events, e.2.cls = 1 ∧ e.2.code = 1)) ∧
  (∀ (s : State) (i : Instr) (dt n : Nat),
      (∃ w, i = .clientReset dt w ∧ n = w.val ∧ (s.advance dt).admits w Od.CLIENT_RESET ∧ 1 ≤ n ∧ n ≤ 63) ∨
        (∃ fn : Fin 64, i = .functionLevelReset dt fn ∧ n = fn.val ∧ s.boot.pcieUp = true) →
      Completes (exec i s) fun t =>
        (∀ q < 128, s.get (Od.Q_OWNER q) = n → t.get (Od.Q_ENABLE q) = 0) ∧
        (∀ id j, t.job id = some j → j.client = n → j.phase = .finished) ∧
        (∀ k r, rowOfKey k = some r → clientObject n k r = true → t.get k = constDefault k) ∧
        (∀ e ∈ t.mem.cache, e.1 / 2 ^ 24 ≠ n) ∧ (∃ e ∈ t.events, e.2.cls = 1 ∧ e.2.code = 2))

/-- WRST_N has no effect while the device is held by PORST_N, and PORST_N low in a warm reset makes it a power-on reset; a warm
reset leaves every gated domain OFF and no PLL change pending; ENGINE_RESET of an engine whose domain is not ON, or of the
display engine while a pipe is enabled, and CLIENT_RESET with 0 or above 63 are refused; a reset of the neural engine disables
every serving session and frees its sequences and pages. -/
def Obligations.ResetRequestsInteract : Prop :=
  ∀ (s : State) (dt : Nat) (w : WReq),
    (s.boot.phase.resting = true →
      exec (.wrstNFall dt) s = .next { s.advance dt with boot := { s.boot with wrst := false } }) ∧
    (s.boot.phase = .warmHeld → Completes (exec (.porstNFall dt) s) fun t =>
      t.boot.phase = .held ∧ t.get Od.RESET_CAUSE = 0) ∧
    (s.boot.phase.resting = false → Completes (exec (.wrstNFall dt) s) fun t =>
      (∀ d, 3 ≤ d → d < 11 → t.pd d = 0) ∧ t.pwr.pllPending = [] ∧ t.pwr.pllChanging = []) ∧
    ((s.advance dt).admits w Od.ENGINE_RESET → w.val ≤ 5 → s.engineCode w.val ≠ Ab.OK →
      exec (.engineReset dt w) s = .next ((s.advance dt).emit (.answer w.via Od.ENGINE_RESET (s.engineCode w.val) 0))) ∧
    ((s.advance dt).admits w Od.ENGINE_RESET → w.val = 4 → s.engineCode 4 = Ab.OK → (∃ p, p < 4 ∧ s.pipeOn p = true) →
      exec (.engineReset dt w) s = .next ((s.advance dt).emit (.answer w.via Od.ENGINE_RESET Ab.BUSY 0))) ∧
    ((s.advance dt).pathUp w.via = true → (s.advance dt).mayAccess w.via Od.CLIENT_RESET true false = true →
      s.domCode (domainOf (Od.CLIENT_RESET / 256) (Od.CLIENT_RESET % 256)) = Ab.OK → w.ty = 2 → w.size = 1 →
      w.val = 0 ∨ 63 < w.val →
      exec (.clientReset dt w) s = .next ((s.advance dt).emit (.answer w.via Od.CLIENT_RESET Ab.RANGE 0))) ∧
    ((s.advance dt).admits w Od.ENGINE_RESET → w.val = 1 → s.engineCode 1 = Ab.OK →
      WriteCompletes (exec (.engineReset dt w) s) w Od.ENGINE_RESET fun t =>
        t.serving = [] ∧ ∀ k < 8, t.get (Od.SV_ENABLE k) = 0)

/-- BOOT_ROM_START turns CTRL and MEM ON, starts the Governor and acts on the boot source; the end of a verification starts the
firmware, or refuses the image with its code and one class 7, code 4 event. (What of this is the model's choice: log entries 6,
22, 27, 50.) -/
def Obligations.BootStartsOrRefusesFirmware : Prop :=
  ∀ (s : State) (dt : Nat) (nor : Option (List Byte)) (v : Verify),
    (s.boot.phase = .starting → Completes (exec (.bootRomStart dt nor) s) fun t =>
      t.boot.phase = .rom ∧ t.pd 1 = 2 ∧ t.pd 2 = 2 ∧ t.watch.gov = true ∧ t.watch.govAt = s.now + dt ∧
      (s.bootSrc ≠ 0 → t.get Od.BOOT_STATE = 1) ∧
      (s.bootSrc = 0 → nor = none → t.get Od.BOOT_STATE = 1 ∧ t.get Od.BOOT_RESULT = Ab.NO_STORE)) ∧
    (s.boot.verifying = some v → Completes (exec (.imageVerifyDone dt) s) fun t =>
      t.boot.verifying = none ∧
      (s.verifyImage v.image = Ab.OK → t.boot.phase = .running ∧ t.get Od.BOOT_STATE = 3 ∧ t.get Od.BOOT_RESULT = Ab.OK ∧
        t.get Od.FW_VERSION = fld v.image 8 4 % 2 ^ widthOf Od.FW_VERSION ∧ t.boot.retained = some v.image) ∧
      (s.verifyImage v.image ≠ Ab.OK → t.get Od.BOOT_RESULT = s.verifyImage v.image % 2 ^ widthOf Od.BOOT_RESULT ∧
        (v.source ≠ .fwLoad → t.get Od.BOOT_STATE = 1 ∧ t.boot.phase = .rom) ∧
        ∃ e ∈ t.events, e.2.cls = 7 ∧ e.2.code = 4))

/-- The end of a long operation: RESULT, DONE_TS, PROGRESS 100 and STATE DONE are written and IRQ_PEND bit 2 set; STORE and
ERASE change the stored configuration where a NOR responds, and retraining zeroes DRAM, but for the writes that waited for its
end, and applies INLINE_ECC_REQ. (What of this is the model's choice: log entries 4, 22, 23, 51.) -/
def Obligations.LongOperationDoneReports : Prop :=
  ∀ (s : State) (dt : Nat) (slot : Fin 256) (r : OpResult) (o : LongOp),
    s.ops.find? (fun o => o.slot.val == slot.val) = some o →
    o.kind = .store ∨ o.kind = .erase ∨ o.kind = .memTrain ∨ (∃ p < 4, o.kind = .linkTrain p) ∨
      (∃ sel, o.kind = .selftest sel) →
    Completes (exec (.longOperationDone dt slot r) s) fun t =>
      t.get (Od.STATE slot.val) = 2 ∧ t.get (Od.PROGRESS slot.val) = 100 ∧
      t.get (Od.DONE_TS slot.val) = (s.advance dt).ts ∧ bitOf (t.get Od.IRQ_PEND) 2 = true ∧
      (∀ x ∈ t.ops, x.slot ≠ slot) ∧
      (o.kind = .store → t.get (Od.RESULT slot.val) = (if r.norResponds then Ab.OK else Ab.NO_STORE) ∧
        t.boot.store = if r.norResponds then some s.storeImage else s.boot.store) ∧
      (o.kind = .erase → t.get (Od.RESULT slot.val) = (if r.norResponds then Ab.OK else Ab.NO_STORE) ∧
        t.boot.store = if r.norResponds then none else s.boot.store) ∧
      (o.kind = .memTrain → t.get (Od.RESULT slot.val) = Ab.OK ∧ t.mem.waiting = [] ∧
        (s.mem.waiting = [] → t.mem.dram = [] ∧ t.mem.metaDram = []) ∧
        t.get Od.INLINE_ECC = s.get Od.INLINE_ECC_REQ % 2 ^ widthOf Od.INLINE_ECC)

/-- The end of a drain leaves no job started in VISOL or DISP; in another domain no unit holds a job, and a job inside a command
has its context saved; DOMAIN_OFF then turns the domain OFF; the end of OPENING leaves every object of the domain at its default
and the domain ON. A frequency change that may start puts its domains on the 400 MHz bypass with the lock lost; its end gives
the requested output, locked, and counts. (What of this is the model's choice: log entries 28, 53.) -/
def Obligations.DomainsAndPllsChange : Prop :=
  (∀ (s : State) (dt : Nat) (d : Fin 8),
      (s.pd (3 + d.val) = 3 → s.pwr.drained.contains (3 + d.val) = false → Completes (exec (.drainEnd dt d) s) fun t =>
        t.pwr.drained.contains (3 + d.val) = true ∧ t.pd (3 + d.val) = 3 ∧
        (∀ id j u, t.job id = some j → j.phase = .started → j.unit = some u → SchedUnit.domain u = 3 + d.val →
          d.val ≠ 5 ∧ d.val ≠ 6 ∧ (j.done ≠ 0 → j.context ≠ .live)) ∧
        (d.val ≠ 5 → d.val ≠ 6 → ∀ u, SchedUnit.domain u = 3 + d.val → t.holder u = none ∧ t.incomingOf u = none)) ∧
      (s.pd (3 + d.val) = 3 → s.pwr.drained.contains (3 + d.val) = true → Completes (exec (.domainOff dt d) s) fun t =>
        t.pd (3 + d.val) = 0 ∧ t.pwr.drained.contains (3 + d.val) = false) ∧
      (s.pd (3 + d.val) = 1 → Completes (exec (.domainOpenEnd dt d) s) fun t =>
        t.pd (3 + d.val) = 2 ∧
        (s.boot.store = none → ∀ k r, rowOfKey k = some r → domainOf (k / 256) (k % 256) = 3 + d.val →
          k ∉ [Od.PIPE_IF 0, Od.UNDERRUN_MODE 0, Od.LP_STATE 0, Od.LP_STATE 1] → t.get k = constDefault k))) ∧
  (∀ (s : State) (dt : Nat) (p : Fin 5) (mhz at_ : Nat),
      ((s.advance dt).pllMayStart p.val = true → mget s.pwr.pllPending p.val = some (mhz, at_) →
        Completes (exec (.pllChangeStart dt p) s) fun t =>
          t.get (Od.PLL_MHZ p.val) = 400 ∧ bitOf (t.get Od.PLL_LOCK) p.val = false ∧
          bitOf (t.get Od.FREQ_PENDING) p.val = false ∧ mget t.pwr.pllChanging p.val = some (mhz, s.now + dt)) ∧
      (mget s.pwr.pllChanging p.val = some (mhz, at_) → Completes (exec (.pllChangeEnd dt p) s) fun t =>
        t.get (Od.PLL_MHZ p.val) = mhz % 2 ^ widthOf (Od.PLL_MHZ p.val) ∧ bitOf (t.get Od.PLL_LOCK) p.val = true ∧
        t.get Od.RELOCK_COUNT = min (countLimit Od.RELOCK_COUNT) (s.get Od.RELOCK_COUNT + 1)))

/-! ## The tick -/

/-- A tick, of an edge on TICK_IN, of a frame of pipe 0, of the generator or substituted, counts from the second on, stamps its
time since T_B and begins bucket 0; while TICK_OUT_EN reads 1 TICK_OUT rises with it. A bucket begins when its share of the
predicted period has passed; TICK_OUT falls 4 µs after it rose. (What of this is the model's choice: log entries 33, 48.) -/
def Obligations.TicksAndBucketsBegin : Prop :=
  (∀ (s : State) (i : Instr) (dt at_ : Nat),
      (∃ high latency, i = .tickInEdge dt high latency ∧ 40 ≤ high ∧ at_ = s.now + dt - min latency 60 ∧ s.alive = true ∧
        s.on Od.TICK_EN = true ∧ s.tick.src = 1 ∧ s.ticksAt at_) ∨
      (∃ ups, i = .frameStart dt 0 ups ∧ at_ = s.now + dt ∧ s.beginsFrame 0 at_ ∧ s.alive = true ∧ s.on Od.TICK_EN = true ∧
        s.tick.src = 0 ∧ s.ticksAt at_) ∨
      (i = .internalTick dt ∧ (s.advance dt).generatorDue = true ∧ at_ = s.now + dt) ∨
      (i = .substitutedTick dt ∧ (s.advance dt).substDue = true ∧ at_ = s.now + dt) →
      Completes (exec i s) fun t =>
        t.get Od.TICK_COUNT = (if s.tick.ever then (s.get Od.TICK_COUNT + 1) % 2 ^ 48 else s.get Od.TICK_COUNT) ∧
        t.get Od.TICK_TS = (at_ - s.tB) % 2 ^ 64 ∧ t.get Od.CUR_BUCKET = 0 ∧ t.get Od.GOV_STATE = 1 ∧
        t.tick.ever = true ∧ t.tick.since = s.tick.since + 1 ∧ t.tick.lastAt = s.now + dt ∧
        (t.on Od.SUBST_ACTIVE = true ↔ i = .substitutedTick dt ∧ s.tick.srcChanges at_ = false) ∧
        (i = .substitutedTick dt → t.get Od.SUBST_COUNT = min (countLimit Od.SUBST_COUNT) (s.get Od.SUBST_COUNT + 1)) ∧
        (s.on Od.TICK_OUT_EN = true → Out.tickOut .high ∈ t.out ∧ t.tick.pin = .high ∧ t.tick.outRise = s.now + dt)) ∧
  (∀ (s : State) (dt : Nat),
      (s.alive = true → s.on Od.TICK_EN = true → s.tick.since ≠ 0 → s.get Od.CUR_BUCKET < 255 →
        (s.get Od.CUR_BUCKET + 1) * s.tick.predicted ≤ 256 * (s.now + dt - s.tick.lastAt) →
        Completes (exec (.bucketStart dt) s) fun t =>
          t.get Od.CUR_BUCKET = s.get Od.CUR_BUCKET + 1 ∧ t.get Od.TICK_COUNT = s.get Od.TICK_COUNT ∧ t.tick = s.tick) ∧
      (s.tick.pin = .high → s.tick.outRise + 4000 ≤ s.now + dt → Completes (exec (.tickOutFall dt) s) fun t =>
        t.tick.pin = .low ∧ t.out = Out.tickOut .low :: s.out ∧ (∀ k, t.get k = s.get k) ∧ t.mem = s.mem))

/-- An edge of the source within 2.5 ms of the tick before is a runt: it is counted, and is no tick. An edge while TICK_EN reads
0, or too early to be the first tick, is neither tick nor runt; a pulse on TICK_IN shorter than 40 ns is no edge. -/
def Obligations.RuntsAreCounted : Prop :=
  ∀ (s : State) (dt high latency : Nat) (ups : List Upset),
    let at_ := s.now + dt - min latency 60
    let runts := min (countLimit Od.RUNT_COUNT) (s.get Od.RUNT_COUNT + 1)
    (40 ≤ high → s.alive = true → s.on Od.TICK_EN = true → s.tick.src = 1 → s.tick.since ≠ 0 →
      at_ < s.tB + s.get Od.TICK_TS + 2500000 →
      exec (.tickInEdge dt high latency) s = .next ((s.advance dt).inc Od.RUNT_COUNT)) ∧
    (s.on Od.TICK_EN = false ∨ (s.tick.since = 0 ∧ at_ < s.tick.enAt + 2500000) ∨ high < 40 →
      exec (.tickInEdge dt high latency) s = .next (s.advance dt)) ∧
    (s.beginsFrame 0 (s.now + dt) → s.alive = true → s.on Od.TICK_EN = true → s.tick.src = 0 → s.tick.since ≠ 0 →
      s.now + dt < s.tB + s.get Od.TICK_TS + 2500000 → Completes (exec (.frameStart dt 0 ups) s) fun t =>
        t.get Od.RUNT_COUNT = runts ∧ t.get Od.TICK_COUNT = s.get Od.TICK_COUNT ∧ t.tick = s.tick) ∧
    (s.beginsFrame 0 (s.now + dt) →
      s.on Od.TICK_EN = false ∨ (s.tick.since = 0 ∧ s.now + dt < s.tick.enAt + 2500000) →
      Completes (exec (.frameStart dt 0 ups) s) fun t =>
        t.get Od.RUNT_COUNT = s.get Od.RUNT_COUNT ∧ t.get Od.TICK_COUNT = s.get Od.TICK_COUNT ∧ t.tick = s.tick)

/-! ## The field network -/

/-- An accepted READ is answered with ABORT 0, the type code, and the value the object reads; an RC object then reads its
default; no other object but BAP_RX_OK, and no byte of memory, changes. An accepted WRITE of an object whose write does nothing
but hold its value is answered with ABORT 0 and the object reads the value; no other object but BAP_RX_OK changes. (What of this
is the model's choice: log entries 25, 49.) -/
def Obligations.BapReadsAndWritesAnswer : Prop :=
  (∀ (s : State) (dt idx sub : Nat) (f : BapFrame) (r : BapReq) (x : Option Session) (row : Row),
      (s.advance dt).accepts f r x → r.opcode = 0x01 → r.payload.length = 4 → fldBe r.payload 0 2 = idx →
      fldBe r.payload 2 1 = sub → (s.advance dt).readCheck r.path idx sub = .ok row →
      Completes (exec (.read dt f) s) fun t =>
        Out.frame r.mac (s.response r x ([0, 0, BitVec.ofNat 8 row.ty.code, 0] ++
          toBe row.ty.size ((s.advance dt).readVal (idx * 256 + sub)))) ∈ t.out ∧
        (row.acc = .rc → idx * 256 + sub ≠ Od.BAP_RX_OK →
          t.get (idx * 256 + sub) = row.dflt % 2 ^ widthOf (idx * 256 + sub)) ∧
        (∀ j, j ≠ idx * 256 + sub → j ≠ Od.BAP_RX_OK → t.get j = s.get j) ∧
        t.get Od.BAP_RX_OK = min (countLimit Od.BAP_RX_OK)
          ((if idx * 256 + sub = Od.BAP_RX_OK then 0 else s.get Od.BAP_RX_OK) + 1) ∧ t.mem = s.mem) ∧
  (∀ (s : State) (dt idx sub : Nat) (f : BapFrame) (r : BapReq) (x : Option Session) (row : Row),
      (s.advance dt).accepts f r x → r.opcode = 0x02 → 4 ≤ r.payload.length → fldBe r.payload 0 2 = idx →
      fldBe r.payload 2 1 = sub → lookup idx sub = .ok row → isCommand (idx * 256 + sub) = false →
      idx * 256 + sub ≠ Od.NODE_ID → idx * 256 + sub ≠ Od.WARM_RESET →
      (s.advance dt).admits ⟨r.path, fldBe r.payload 3 1, (r.payload.drop 4).length, be (r.payload.drop 4)⟩ (idx * 256 + sub) →
      (∀ (u : State) (v : Nat), u.writeEffect r.path (idx * 256 + sub) v = .ok (u.set (idx * 256 + sub) v)) →
      Completes (exec (.write dt f) s) fun t =>
        Out.frame r.mac (s.response r x [0, 0, 0, 0]) ∈ t.out ∧
        t.get (idx * 256 + sub) = row.rng.filter (be (r.payload.drop 4)) % 2 ^ widthOf (idx * 256 + sub) ∧
        (∀ j, j ≠ idx * 256 + sub → j ≠ Od.BAP_RX_OK → t.get j = s.get j) ∧ t.mem = s.mem)

/-- A segment of a transfer that starts at 0 or goes on where the last one ended is answered with NEXT; once TOTAL is reached
the object holds the new content, and until then it keeps its own. A BLOCK_READ of up to 1,024 bytes is answered with the
content's length and its bytes from OFFSET. -/
def Obligations.BlockTransfersMoveContent : Prop :=
  (∀ (s : State) (dt idx sub off total : Nat) (f : BapFrame) (r : BapReq) (x : Option Session) (row : Row) (head : List Byte),
      (s.advance dt).accepts f r x → r.opcode = 0x03 → 13 ≤ r.payload.length → r.payload.length ≤ 1036 →
      fldBe r.payload 0 2 = idx → fldBe r.payload 2 1 = sub → fldBe r.payload 3 1 = 9 → fldBe r.payload 4 4 = off →
      fldBe r.payload 8 4 = total → idx * 256 + sub ≠ Od.FW_IMAGE →
      (s.advance dt).locate r.path idx sub true true = .ok row → row.ty = .dom → row.acc ≠ .ro → row.acc ≠ .rc →
      s.locked row (idx * 256 + sub) = false → total ≤ (domSize (idx * 256 + sub)).1 →
      ((domSize (idx * 256 + sub)).2 = false → total = (domSize (idx * 256 + sub)).1) →
      off + (r.payload.drop 12).length ≤ total →
      (∀ y, mget s.bap.xfers (idx * 256 + sub) = some y → samePath y.owner r.path = true) →
      ((off = 0 ∧ head = []) ∨ (0 < off ∧ head.length = off ∧ ∃ y, mget s.bap.xfers (idx * 256 + sub) = some y ∧
        y.data = head ∧ y.total = total)) →
      Completes (exec (.blockWrite dt f) s) fun t =>
        Out.frame r.mac (s.response r x ([0, 0, 0, 0] ++ toBe 4 (off + (r.payload.drop 12).length))) ∈ t.out ∧
        (if off + (r.payload.drop 12).length = total
         then t.getDom (idx * 256 + sub) = head ++ r.payload.drop 12 ∧ mget t.bap.xfers (idx * 256 + sub) = none
         else t.dom = s.dom ∧ mget t.bap.xfers (idx * 256 + sub) =
            some { owner := r.path, total := total, data := head ++ r.payload.drop 12, last := s.now + dt })) ∧
  (∀ (s : State) (dt idx sub : Nat) (f : BapFrame) (r : BapReq) (x : Option Session) (row : Row),
      (s.advance dt).accepts f r x → r.opcode = 0x04 → r.payload.length = 10 → fldBe r.payload 0 2 = idx →
      fldBe r.payload 2 1 = sub → fldBe r.payload 8 2 ≤ 1024 → (s.advance dt).locate r.path idx sub false true = .ok row →
      row.ty = .dom → row.acc ≠ .wo → row.acc ≠ .wo1 →
      Completes (exec (.blockRead dt f) s) fun t =>
        Out.frame r.mac (s.response r x ([0, 0] ++ toBe 4 ((s.advance dt).domContent (idx * 256 + sub)).length ++
          slice ((s.advance dt).domContent (idx * 256 + sub)) (fldBe r.payload 4 4) (fldBe r.payload 8 2))) ∈ t.out ∧
        (∀ j, j ≠ Od.BAP_RX_OK → t.get j = s.get j) ∧ t.dom = s.dom ∧ t.mem = s.mem)

/-- SESSION_OPEN with a provisioned key opens the node's session with the key of R41 and both counts 0, answered without a
trailer; SESSION_CLOSE inside a session ends it. DISCOVER is answered with DEVICE_ID, STEPPING and NODE_ID: at once, or where it
was broadcast and NODE_ID is not 0, when 2 ms × min(7, NODE_ID) have passed. (What of this is the model's choice: log entries 6,
25, 49.) -/
def Obligations.SessionsAndDiscoverAnswer : Prop :=
  (∀ (s : State) (dt : Nat) (f : BapFrame) (r : BapReq) (x : Option Session),
      let k := fldBe r.payload 0 1
      let nd := toBe 16 (Config.nonce s.fresh)
      ((s.advance dt).accepts f r x → r.opcode = 0x20 → r.payload.length = 20 → k ≤ 7 → s.getDom (Od.HMAC_KEY k) ≠ [] →
        Completes (exec (.sessionOpen dt f) s) fun t =>
          Out.frame r.mac (s.response r none ([0, 0] ++ nd)) ∈ t.out ∧
          t.session r.src = some {
            node := r.src, keyId := k,
            sk := hmacSha256 (s.getDom (Od.HMAC_KEY k)) ([0x42, 0x41, 0x50, 0x53] ++ slice r.payload 4 16 ++ nd),
            lastRx := 0, lastTx := 0, lastValid := s.now + dt }) ∧
      ((s.advance dt).accepts f r x → r.opcode = 0x21 → r.payload = [] → r.auth = true →
        Completes (exec (.sessionClose dt f) s) fun t =>
          Out.frame r.mac (s.response r x [0, 0]) ∈ t.out ∧ t.session r.src = none)) ∧
  (∀ (s : State) (dt : Nat) (f : BapFrame) (r : BapReq) (x : Option Session),
      (s.advance dt).accepts f r x → r.opcode = 0x30 → r.payload = [] →
      Completes (exec (.discover dt f) s) fun t =>
        let b := s.response r x ([0, 0] ++ toBe 4 (s.get Od.DEVICE_ID) ++ toBe 1 (s.get Od.STEPPING) ++ toBe 1 (s.get Od.NODE_ID))
        if r.dst = 0xFF ∧ s.get Od.NODE_ID ≠ 0 then
          t.bap.waiting = s.bap.waiting ++ [{ node := r.src, mac := r.mac, frame := some b, after := none,
                                              due := s.now + dt + 2000000 * min 7 (s.get Od.NODE_ID) }] ∧ t.out = s.out
        else Out.frame r.mac b ∈ t.out)

/-- A duplicate of a node's kept request outside a session, and one with the kept trailer, is answered with the kept response, a
DISCOVER to every node after its delay again, and executed no second time: no object, no content and no byte of memory changes.
The delay of an answer ends and it leaves; a transfer without a segment for 1 s is given up; a session without a valid frame for
SESSION_IDLE_MS ends. No object changes its content by the last two. (What of this is the model's choice: log entry 25.) -/
def Obligations.DuplicatesAndTimeoutsEndQuietly : Prop :=
  (∀ (s : State) (i : Instr) (dt : Nat) (f : BapFrame) (k : Kept),
      i = .read dt f ∨ i = .write dt f ∨ i = .blockWrite dt f ∨ i = .blockRead dt f ∨ i = .sessionOpen dt f ∨
        i = .sessionClose dt f ∨ i = .discover dt f →
      (s.advance dt).netUp = true → 8 ≤ f.bytes.length → s.addressed f = true → discarded f = false →
      mget s.bap.kept (requestOf f).src = some k → sameRequest k (requestOf f) = true →
      (requestOf f).auth = false ∨ sameTrailer k (requestOf f) = true → (∀ w ∈ s.bap.waiting, w.node ≠ (requestOf f).src) →
      Completes (exec i s) fun t =>
        (if (requestOf f).opcode = 0x30 ∧ (requestOf f).dst = 0xFF ∧ s.get Od.NODE_ID ≠ 0 then
          t.out = s.out ∧ ∃ w ∈ t.bap.waiting, w.node = (requestOf f).src ∧ w.frame = some k.response ∧
            w.due = s.now + dt + 2000000 * min 7 (s.get Od.NODE_ID)
        else t.out = Out.frame f.srcMac k.response :: s.out) ∧
        t.od = s.od ∧ t.dom = s.dom ∧ t.mem = s.mem ∧ t.qs.jobs.length = s.qs.jobs.length) ∧
  (∀ (s : State) (dt : Nat),
      (∀ (w : Waiting) (b : List Byte) (pre post : List Waiting), s.boot.phase = .running →
        s.bap.waiting = pre ++ w :: post → (∀ y ∈ pre, y.node ≠ w.node) → w.frame = some b → w.due ≤ s.now + dt →
        Completes (exec (.discoverDelayExpiry dt w.node) s) fun t =>
          Out.frame w.mac b ∈ t.out ∧ t.bap.waiting.length < s.bap.waiting.length) ∧
      (∀ idx sub x, mget s.bap.xfers (idx * 256 + sub) = some x → x.last + 1000000000 ≤ s.now + dt →
        Completes (exec (.blockTransferTimeout dt idx sub) s) fun t =>
          mget t.bap.xfers (idx * 256 + sub) = none ∧ t.dom = s.dom ∧ t.od = s.od) ∧
      (∀ node x, s.session node = some x → x.lastValid + s.get Od.SESSION_IDLE_MS * 1000000 ≤ s.now + dt →
        Completes (exec (.sessionIdleExpiry dt node) s) fun t => t.session node = none ∧ t.od = s.od ∧ t.dom = s.dom))

/-! ## The PCI Express window -/

/-- DA_READ of an object, while no access is under way, gives its value in DA_DATA, and of DOM content its bytes in DA_BUF;
DA_STATUS then reads DONE with abort code 0. DA_WRITE of an object whose write does nothing but hold its value: the object reads
it and DA_STATUS reads DONE with abort code 0. (What of this is the model's choice: log entries 24, 49.) -/
def Obligations.AccessBlockCompletes : Prop :=
  (∀ (s : State) (dt idx sub ty offset len : Nat) (fn : Fin 64) (row : Row), idx < 2 ^ 16 → sub < 256 → s.boot.pcieUp = true →
      (s.win fn.val).goUntil ≤ s.now + dt →
      (ty % 16 ≠ 9 → (s.advance dt).readCheck (.pcie fn) idx sub = .ok row →
        Completes (exec (.daRead dt fn (idx * 256 + sub) ty offset len) s) fun t =>
          (t.win fn.val).daStatus = 2 ^ 31 ∧
          (t.win fn.val).daLo = (s.advance dt).readVal (idx * 256 + sub) % 2 ^ 32 ∧
          (t.win fn.val).daHi = (s.advance dt).readVal (idx * 256 + sub) / 2 ^ 32 ∧
          (∀ j, j ≠ idx * 256 + sub → t.get j = s.get j) ∧ t.mem = s.mem) ∧
      (ty % 16 = 9 → (s.advance dt).locate (.pcie fn) idx sub false true = .ok row → row.ty = .dom → row.acc ≠ .wo →
        row.acc ≠ .wo1 → offset < 2 ^ 32 → 1 ≤ len → len ≤ 4096 →
        Completes (exec (.daRead dt fn (idx * 256 + sub) ty offset len) s) fun t =>
          (t.win fn.val).daStatus = 2 ^ 31 ∧
          slice (t.win fn.val).daBuf 0 (slice ((s.advance dt).domContent (idx * 256 + sub)) offset len).length =
            slice ((s.advance dt).domContent (idx * 256 + sub)) offset len ∧
          t.od = s.od ∧ t.dom = s.dom ∧ t.mem = s.mem)) ∧
  (∀ (s : State) (dt idx sub ty lo hi offset len : Nat) (buf : List Byte) (fn : Fin 64) (row : Row),
      let k := idx * 256 + sub
      let v := (hi % 2 ^ 32 * 2 ^ 32 + lo % 2 ^ 32) % 2 ^ (8 * codeSize (ty % 16))
      idx < 2 ^ 16 → sub < 256 → ty % 16 ≠ 9 → lookup idx sub = .ok row → isCommand k = false → k ≠ Od.NODE_ID →
      k ≠ Od.WARM_RESET → s.boot.pcieUp = true → (s.win fn.val).goUntil ≤ s.now + dt → (s.advance dt).admits ⟨.pcie fn, ty % 16, codeSize (ty % 16), v⟩ k →
      (∀ (u : State) (x : Nat), u.writeEffect (.pcie fn) k x = .ok (u.set k x)) →
      Completes (exec (.daWrite dt fn k ty lo hi offset len buf) s) fun t =>
        (t.win fn.val).daStatus = 2 ^ 31 ∧ t.get k = row.rng.filter v % 2 ^ widthOf k ∧
        (∀ j, j ≠ k → t.get j = s.get j) ∧ t.mem = s.mem)

/-- A doorbell of the queue's owner submits the jobs up to the new tail; a refused one changes no queue, and is counted and
recorded with its abort code. A 32-bit write to the lower word of an object in a mapped page takes effect at once, but for a
U64, whose lower word is held until the upper word joins it; a 32-bit read returns the value's lower word. (What of this is the
model's choice: log entries 2, 24, 49.) -/
def Obligations.DoorbellsAndDirectPagesComplete : Prop :=
  (∀ (s : State) (dt : Nat) (fn : Fin 64) (q : Fin 128) (val : BitVec 32), s.boot.pcieUp = true →
      let tail := val.toNat % 2 ^ 16
      let n := subMod 16 tail (s.get (Od.Q_TAIL q.val))
      let c := if s.selftesting then Ab.BUSY
        else if s.get (Od.Q_OWNER q.val) ≠ fn.val then Ab.AUTH
        else if s.on (Od.Q_ENABLE q.val) = false then Ab.RANGE
        else if s.engineCode (engineOf q.val) ≠ Ab.OK then s.engineCode (engineOf q.val)
        else if s.ringSlots q.val < n ∨ s.ringSlots q.val < subMod 16 tail (s.get (Od.Q_DONE q.val)) then Ab.RANGE
        else Ab.OK
      (c = Ab.OK → Completes (exec (.doorbell dt fn q val) s) fun t =>
        t.get (Od.Q_TAIL q.val) = tail ∧
        (t.qs.jobs.drop s.qs.jobs.length).map (fun j => (j.id, j.owner, j.phase)) =
          (rangeFrom (s.get (Od.Q_TAIL q.val)) n).map (fun m => (⟨q, BitVec.ofNat 16 m⟩, fn, .queued)) ∧
        t.qs.jobs.take s.qs.jobs.length = (s.advance dt).qs.jobs ∧ t.mem = s.mem) ∧
      (c ≠ Ab.OK → Completes (exec (.doorbell dt fn q val) s) fun t =>
        t.get (Od.Q_DB_ERR q.val) = min (countLimit (Od.Q_DB_ERR q.val)) (s.get (Od.Q_DB_ERR q.val) + 1) ∧
        (t.win fn.val).lastAbort = (0x4000 + q.val) * 2 ^ 16 + c ∧
        (t.win fn.val).errCount = min 0xFFFFFFFF ((s.win fn.val).errCount + 1) ∧
        (∀ j, j ≠ Od.Q_DB_ERR q.val → t.get j = s.get j) ∧ t.qs = (s.advance dt).qs ∧ t.mem = s.mem)) ∧
  (∀ (s : State) (dt idx page sub val : Nat) (fn : Fin 64) (row : Row),
      let off := 0x110000 + page * 0x800 + sub * 8
      let k := idx * 256 + sub
      page < 64 → sub < 256 → val < 2 ^ 32 → s.boot.pcieUp = true → (s.win fn.val).pageIndex page = some idx →
      lookup idx sub = .ok row → blockOnly idx sub = false →
      (row.ty ≠ .u64 → k ≠ Od.NODE_ID → k ≠ Od.WARM_RESET →
        (s.advance dt).admits ⟨.pcie fn, row.ty.code, codeSize row.ty.code, val % 2 ^ (8 * codeSize row.ty.code)⟩ k →
        (∀ (u : State) (x : Nat), u.writeEffect (.pcie fn) k x = .ok (u.set k x)) →
        Completes (exec (.directPageWrite dt fn off false val) s) fun t =>
          t.get k = row.rng.filter (val % 2 ^ (8 * codeSize row.ty.code)) % 2 ^ widthOf k ∧
          (∀ j, j ≠ k → t.get j = s.get j) ∧ t.mem = s.mem) ∧
      (row.ty = .u64 → Completes (exec (.directPageWrite dt fn off false val) s) fun t =>
        mget (t.win fn.val).lower k = some val ∧ t.od = s.od ∧ t.mem = s.mem) ∧
      ((s.advance dt).readCheck (.pcie fn) idx sub = .ok row →
        Completes (exec (.directPageRead dt fn off false) s) fun t =>
          t.out = Out.barData fn.val ((s.advance dt).readVal k % 2 ^ 32) :: s.out ∧
          (row.ty = .u64 → mget (t.win fn.val).latched k = some ((s.advance dt).readVal k / 2 ^ 32)) ∧
          (row.acc = .rc → t.get k = row.dflt % 2 ^ widthOf k) ∧ (∀ j, j ≠ k → t.get j = s.get j) ∧ t.mem = s.mem))

/-- A lower-word write of a flag or fence that the function may name sets its value and clears POISON; no other flag or fence
changes. One it may not name is refused with AUTH, and an upper-word write has no effect. JOB_QUERY names the job that JOB_STATE
reports and changes nothing else of the device. (What of this is the model's choice: log entries 24, 30.) -/
def Obligations.FlagWritesAndJobQueryComplete : Prop :=
  (∀ (s : State) (dt : Nat) (fn : Fin 64) (fence : Bool) (id : Fin 1024) (upper : Bool) (val : BitVec 32),
      s.boot.pcieUp = true → (fence = true ∨ id.val < 256) →
      (s.mayName fn.val fence id.val = true → upper = false →
        Completes (exec (.flagWrite dt fn fence id upper val) s) fun t =>
          t.flag fence id.val = { val := val.toNat, poison := false, p := 0 } ∧
          (∀ f m, f ≠ fence ∨ m ≠ id.val → t.flag f m = s.flag f m) ∧ t.od = s.od ∧ t.mem = s.mem) ∧
      (s.mayName fn.val fence id.val = true → upper = true →
        exec (.flagWrite dt fn fence id upper val) s = .next (s.advance dt)) ∧
      (s.mayName fn.val fence id.val = false → Completes (exec (.flagWrite dt fn fence id upper val) s) fun t =>
        (t.win fn.val).lastAbort = Ab.AUTH ∧ (∀ f m, t.flag f m = s.flag f m) ∧ t.od = s.od ∧ t.mem = s.mem)) ∧
  (∀ (s : State) (dt : Nat) (fn : Fin 64) (handle : BitVec 32), s.boot.pcieUp = true →
      Completes (exec (.jobQuery dt fn handle) s) fun t =>
        (t.win fn.val).query = handle.toNat ∧ (∀ m, m ≠ fn.val → t.win m = s.win m) ∧ t.od = s.od ∧ t.mem = s.mem ∧
        t.qs = (s.advance dt).qs)

/-! ## The memory system -/

/-- A repartition takes effect once no job runs: the copied table becomes active, and every Millpond byte and code of a bank
whose partition changes reads 0; the other banks, DRAM and host memory keep their bytes. Retention, refills and self-refresh
change no byte: a bank of a partition idle for 1 µs is retained; a refill wakes DRAM; idle DRAM falls asleep and counts, and a
falling tolerance wakes it and adds the time it slept. (What of this is the model's choice: log entries 46, 51.) -/
def Obligations.MillpondAndMemoryPowerComplete : Prop :=
  (∀ (s : State) (dt : Nat) (new : List Part), s.mem.staged = some new → s.jobRunning = false →
      Completes (exec (.repartitionApply dt) s) fun t =>
        t.mem.staged = none ∧
        (new.length = 16 → ∀ i x, new[i]? = some x →
          t.activePart i = { kind := x.kind % 256, first := x.first % 256, banks := x.banks % 256, owner := x.owner % 256 }) ∧
        (∀ a, partOfBank ((List.range 16).map s.activePart) (a / mib2) ≠ partOfBank new (a / mib2) →
          t.cell (.mill a) = 0 ∧ t.code (.mill a) = 0) ∧
        (∀ a, partOfBank ((List.range 16).map s.activePart) (a / mib2) = partOfBank new (a / mib2) →
          t.cell (.mill a) = s.cell (.mill a) ∧ t.code (.mill a) = s.code (.mill a)) ∧
        (∀ a, t.cell (.dram a) = s.cell (.dram a)) ∧ (∀ f a, t.cell (.host f a) = s.cell (.host f a))) ∧
  (∀ (s : State) (dt : Nat) (b : Fin 32) (p : Fin 4),
      ((partOfBank ((List.range 16).map s.activePart) b.val).isSome = true → mgetD s.mem.bankUse b.val 0 + 1000 ≤ s.now + dt →
        s.domOn 2 = true → Completes (exec (.bankRetentionEntry dt b) s) fun t =>
          t.mem.retained.contains b.val = true ∧ (∀ x, t.cell x = s.cell x) ∧ t.od = s.od) ∧
      (let u := (s.advance dt).settleFifo p.val
       u.pipeOn p.val = true → u.dramBits p.val ≠ 0 → (u.fifo p.val).refilling = false → u.opRunning .memTrain = false →
        (u.pipe p.val).abandoned = false →
        u.ltr p.val ≤ u.srThreshold ∨ (u.on Od.SR_EN = false ∧ (u.fifo p.val).fill < fifoCap) →
        Completes (exec (.refillStart dt p) s) fun t =>
          (t.fifo p.val).refilling = true ∧ t.mem.refresh = .awake ∧ t.mem.lastReq = s.now + dt ∧ ∀ x, t.cell x = s.cell x) ∧
      (let u := (s.advance dt).settleFifos
       u.on Od.SR_EN = true → u.mem.refresh = .awake → u.domOn 2 = true → u.opRunning .memTrain = false →
        u.mem.lastReq + u.get Od.SR_IDLE_NS ≤ s.now + dt →
        (∀ q < 4, u.pipeOn q = true → u.srThreshold ≤ u.ltr q ∧ (u.fifo q).refilling = false) →
        Completes (exec (.selfRefreshEntry dt) s) fun t =>
          t.mem.refresh = .asleep (s.now + dt) ∧
          t.get Od.SR_ENTRIES = min (countLimit Od.SR_ENTRIES) (s.get Od.SR_ENTRIES + 1) ∧ ∀ x, t.cell x = s.cell x) ∧
      (∀ at_, s.mem.refresh = .asleep at_ → (s.advance dt).pipeOn p.val = true →
        (s.advance dt).ltr p.val ≤ (s.advance dt).srThreshold →
        Completes (exec (.selfRefreshExit dt) s) fun t =>
          t.mem.refresh = .awake ∧ t.get Od.SR_TIME_NS = (s.get Od.SR_TIME_NS + (s.now + dt - at_)) % 2 ^ 64 ∧
          ∀ x, t.cell x = s.cell x))

/-! ## The Waterwheel and the queues -/

/-- The end of a table's checks: a table that passes takes effect at once while ticks are stopped and waits for a tick
otherwise; one that fails leaves the table in force and ends its load with RANGE or DOMAIN_OFF. -/
def Obligations.WheelChecksDecide : Prop :=
  ∀ (s : State) (dt slot : Nat) (b : List Byte), s.wheel.image = some b →
    let w := wheelOf b
    let on := w.entries.all (fun e => s.domOn (unitDomain e.engine e.quarter))
    (s.wheelOk b = true → w.admFail = none → on = true → s.on Od.TICK_EN = false →
      Completes (exec (.wheelCheckDone dt) s) fun t =>
        t.wheel.table = some w ∧ t.get Od.WHEEL_ACTIVE = 1 ∧ t.get Od.WHEEL_TICK_NS = w.tickNs ∧ t.get Od.ADM_FAIL = 0) ∧
    (s.wheelOk b = true → w.admFail = none → on = true → s.on Od.TICK_EN = true →
      Completes (exec (.wheelCheckDone dt) s) fun t =>
        t.wheel.table = s.wheel.table ∧ t.wheel.ready = some (w, w.peak, s.now + dt)) ∧
    (s.wheelOk b = false ∨ w.admFail ≠ none ∨ on = false → s.wheelSlot = some slot →
      Completes (exec (.wheelCheckDone dt) s) fun t =>
        t.wheel.table = s.wheel.table ∧ t.get (Od.STATE slot) = 2 ∧
        t.get (Od.RESULT slot) = (if s.wheelOk b = false ∨ w.admFail ≠ none then Ab.RANGE else Ab.DOMAIN_OFF))

/-- The job next in line of a queue starts on its unit once its slot has been read and checked, its wait is satisfied, no
Waterwheel entry claims it, nothing of a higher level wants the unit and no queue of its own level is ahead in turn. (What of
this is the model's choice: log entries 30, 34, 53.) -/
def Obligations.JobsStart : Prop :=
  ∀ (s u v : State) (dt : Nat) (q : Fin 128) (j k : Job) (x : SchedUnit), (s.advance dt).nextInLine q.val = some j →
    (s.advance dt).startBlocked j.client = false → (s.advance dt).servingOf q.val = none → (s.advance dt).bound j = false →
    (s.advance dt).checkLine j = .ready u k → u.unitFor k = (v, some x) → v.outranked x (v.prio q.val) k.id = false →
    v.startAhead x q.val = false →
    Completes (exec (.jobStart dt q) s) fun t =>
      (∃ y, t.job j.id = some y ∧ y.phase = .started ∧ y.unit = some x ∧ y.window = none ∧ y.startAt = v.now) ∧
      t.get (Od.Q_STARTED q.val) = (s.get (Od.Q_STARTED q.val) + 1) % 2 ^ 16 ∧
      t.get (Od.Q_TAIL q.val) = s.get (Od.Q_TAIL q.val) ∧ t.get (Od.Q_DONE q.val) = s.get (Od.Q_DONE q.val) ∧
      ∀ p, t.cell p = s.cell p

/-- The finished job at the front of a queue that owes no Leat packet completes where its client's ring has room: its record is
written where the ring's tail points, the tail and Q_DONE move on, its flag takes the signalled value or is poisoned, and the
job is gone. A held record is written once the ring has room: the oldest one goes, the tail moves on. (What of this is the
model's choice: log entries 11, 30.) -/
def Obligations.JobsCompleteWithTheirRecords : Prop :=
  (∀ (s u : State) (dt : Nat) (q : Fin 128) (j : Job) (p : Phys), ((s.advance dt).jobsOf q.val).head? = some j →
      j.phase = .finished → (s.advance dt).owesLeat j.id = false → s.heldOf j.client = [] → s.crRoom j.client = true → s.opRunning .memTrain = false →
      let n := j.client
      let tail := s.get (Od.CL_CR_TAIL n)
      let va := s.get (Od.CL_CR_BASE n) + 32 * (tail % s.get (Od.CL_CR_SLOTS n))
      let phase : Byte := if tail / s.get (Od.CL_CR_SLOTS n) % 2 = 0 then 0x80 else 0
      let fl := (slotSigFence j.slot, slotSigId j.slot)
      Completes (exec (.jobComplete dt q) s) fun t =>
        t.job j.id = none ∧
        t.get (Od.CL_CR_TAIL n) = (tail + 1) % 2 ^ 32 ∧
        t.get (Od.Q_DONE (bitsOf j.handle 19 7)) = (s.get (Od.Q_DONE (bitsOf j.handle 19 7)) + 1) % 2 ^ 16 ∧
        ((s.advance dt).resolve n va true = (u, some (p, false)) → va % 32 = 0 → p.addr % 32 = 0 →
          t.cells p 32 = ((s.advance dt).recordOf j).take 7 ++ [phase] ++ slice ((s.advance dt).recordOf j) 8 24) ∧
        (slotSigEn j.slot = true → j.checked = true →
          (j.status ∈ [St.OK, St.DEADLINE_MISSED, St.ILL_POSED, St.DEFERRED, St.PARKED] →
            t.flag fl.1 fl.2 = { val := slotSigValue j.slot % 2 ^ 32, poison := false, p := 0 }) ∧
          (j.status ∈ [St.ABORTED, St.DEPENDENCY_ABORTED, St.FAULT] →
            (t.flag fl.1 fl.2).poison = true ∧ (t.flag fl.1 fl.2).p = slotSigValue j.slot % 2 ^ 32 ∧
            (t.flag fl.1 fl.2).val = (s.flag fl.1 fl.2).val))) ∧
  (∀ (s : State) (dt : Nat) (n : Fin 64) (r : List Byte) (rest : List (List Byte)), s.heldOf n.val = r :: rest →
      s.crRoom n.val = true → Completes (exec (.heldRecordWrite dt n) s) fun t =>
        t.heldOf n.val = rest ∧ t.get (Od.CL_CR_TAIL n.val) = (s.get (Od.CL_CR_TAIL n.val) + 1) % 2 ^ 32 ∧
        t.get (Od.CL_CR_HELD n.val) = rest.length % 2 ^ widthOf (Od.CL_CR_HELD n.val) ∧ t.qs.stalled.contains n.val = false)

/-! ## Commands of jobs -/

/-- NOP ends OK; INDIRECT takes its list, whose first command is then the job's next. Neither changes memory or an object. At a
pre-emption point a job gives its unit up to the best of those that outrank it, its context saved, and where the domain of a
raster unit or quarter closes to none; a switch that ends, once its cycles have passed, gives the unit to the incoming job,
whose context is live. No byte of memory changes. (What of this is the model's choice: log entries 34, 53.) -/
def Obligations.ListsAndSwitchesComplete : Prop :=
  (∀ (s u : State) (dt : Nat) (id : JobId) (j : Job) (c : List Byte),
      ((s.advance dt).takeCmd id 0 = .cmd u j c → zeros c 24 40 = true → Completes (exec (.nop dt id) s) fun t =>
        t.ends j St.OK [] 0 ∧ t.sameStore u) ∧
      ((s.advance dt).job id = some j → (s.advance dt).mayIssue j = true → slotOpcode j.slot = 1 → j.inList = false →
        fld j.slot 24 8 % 64 = 0 → 1 ≤ fld j.slot 32 4 → fld j.slot 32 4 ≤ 65535 →
        zeros j.slot 36 28 = true → Completes (exec (.indirect dt id) s) fun t =>
          t.job id = some { j with inList := true, taken := 0 } ∧ t.sameStore s)) ∧
  (∀ (s : State) (dt acc staging at_ : Nat) (x : SchedUnit) (h k : Job) (id : JobId) (a b : Nat),
      let v := (s.advance dt).atPoint x
      let saved := fun (t : State) => t.holder x = none ∧ (∃ o, t.job h.id = some o ∧ o.context ≠ .live) ∧ ∀ p, t.cell p = s.cell p
      (v.between x = true → v.onUnit x = some h → h.wants x = true → v.incomingOf x = none → h.liveAt x acc staging = some (a, b) →
        v.job h.id = some h →
        (savesOnClose x = true → v.pd (SchedUnit.domain x) = 3 → Completes (exec (.preemptionPoint dt x acc staging) s) fun t =>
          saved t ∧ t.incomingOf x = none) ∧
        (v.pd (SchedUnit.domain x) ≠ 3 → v.bestFor x (fun o => o.id != h.id && v.level h < v.level o) = some k →
          Completes (exec (.preemptionPoint dt x acc staging) s) fun t =>
            saved t ∧
            t.incomingOf x = some (k.id, s.now + dt + t.cyclesNs x ((t.contextOf h.id).cycles + k.context.cycles)) ∧
            (x = .raster → v.needsStore k = true → v.raster.binHolder = some h.id → t.raster.binHolder = none))) ∧
      ((s.advance dt).incomingOf x = some (id, at_) → (s.advance dt).job id = some k →
        (at_ ≤ s.now + dt → Completes (exec (.contextSwitchDone dt x) s) fun t =>
          t.holder x = some id ∧ t.incomingOf x = none ∧ (∃ o, t.job id = some o ∧ o.context = .live) ∧
          ∀ p, t.cell p = s.cell p) ∧
        (s.now + dt < at_ → exec (.contextSwitchDone dt x) s = .next (s.advance dt))))

/-- FILL writes its pattern over LEN bytes from DST, byte i of the range taking byte i mod 4 of the pattern. At a plain address
no other byte of memory changes, and none of the objects below 0x9000 where DRAM holds no uncorrectable error; under translation
the command ends OK once every page translates. A run that stops at a pre-emption point has written what comes before it. (What
of this is the model's choice: log entries 31, 53.) -/
def Obligations.FillWritesThePattern : Prop :=
  ∀ (s u : State) (dt : Nat) (ups : List Upset) (id : JobId) (j : Job) (c : List Byte),
    let dst := fld c 24 8
    let len := fld c 32 4
    let pat := fld c 36 4
    let clr := clearOf (fld c 41 1) (fld c 40 1)
    ((s.advance dt).upsets ups).takes id 5 0x12 u j c → j.done = 0 → fld c 41 1 ≤ 1 → zeros c 42 22 = true →
    (u.plain j.client → dst + len ≤ u.usable → Completes (exec (.fill dt id ⟨none, ups⟩) s) fun t =>
      t.ends j St.OK [] 0 ∧
      (∀ a, t.cell (.dram a) = if dst ≤ a ∧ a < dst + len then patternByte pat (a - dst) else u.cell (.dram a)) ∧
      (∀ a, t.cell (.mill a) = u.cell (.mill a)) ∧ (∀ f a, t.cell (.host f a) = u.cell (.host f a)) ∧
      (u.mem.badDram = [] → ∀ k, k < 0x900000 → t.get k = u.get k)) ∧
    (∀ v w cs, 0 < len → u.probe j.client dst len true = (v, none, cs) →
      (v.fillSpan j.client dst pat clr 0 len = (w, none) →
        Completes (exec (.fill dt id ⟨none, ups⟩) s) fun t => t.ends j St.OK [] 0 ∧ t.sameStore w) ∧
      (∀ n, copyPoint * n < len → v.fillSpan j.client dst pat clr 0 (copyPoint * n) = (w, none) →
        Completes (exec (.fill dt id ⟨some n, ups⟩) s) fun t =>
          t.job id = some { j with done := n, live := (0, 0) } ∧ t.sameStore w))

/-- COPY moves LEN bytes. At plain addresses every byte of the destination reads as its source byte did and no other byte of
memory, and no object below 0x9000, changes; in every mode and under translation the command ends OK once its checks pass and no
byte faults, and a run that stops at a pre-emption point has moved what comes before it. (What of this is the model's choice:
log entries 31, 47, 53.) -/
def Obligations.CopyMovesTheBytes : Prop :=
  ∀ (s u : State) (dt : Nat) (ups : List Upset) (id : JobId) (j : Job) (c : List Byte),
    let src := fld c 24 8
    let dst := fld c 32 8
    let len := fld c 40 4
    let mode := fld c 44 1
    let clr := clearOf (fld c 46 1) (fld c 45 1)
    ((s.advance dt).upsets ups).takes id 5 0x10 u j c → j.done = 0 → fld c 46 1 ≤ 1 → zeros c 47 17 = true → mode ≤ 3 →
    (u.plain j.client → mode = 0 → u.mem.badDram = [] → src + len ≤ u.usable → dst + len ≤ u.usable →
      dst + len ≤ src ∨ src + len ≤ dst → Completes (exec (.copy dt id ⟨none, ups⟩) s) fun t =>
        t.ends j St.OK [] 0 ∧
        (∀ a, t.cell (.dram a) = if dst ≤ a ∧ a < dst + len then u.cell (.dram (src + (a - dst))) else u.cell (.dram a)) ∧
        (∀ a, t.cell (.mill a) = u.cell (.mill a)) ∧ (∀ f a, t.cell (.host f a) = u.cell (.host f a)) ∧
        (∀ k, k < 0x900000 → t.get k = u.get k)) ∧
    (∀ v w, 0 < len →
      u.copyChecks j.client src len dst len mode (src % 256 == 0 && dst % 256 == 0 && len % 256 == 0) = (v, none) →
      (v.copySpan j.client src 0 dst 0 len (mode == 1) clr 0 len = (w, none) →
        Completes (exec (.copy dt id ⟨none, ups⟩) s) fun t => t.ends j St.OK [] 0 ∧ t.sameStore w) ∧
      (∀ n, copyPoint * n < len → v.copySpan j.client src 0 dst 0 len (mode == 1) clr 0 (copyPoint * n) = (w, none) →
        Completes (exec (.copy dt id ⟨some n, ups⟩) s) fun t =>
          t.job id = some { j with done := n, live := (0, 0) } ∧ t.sameStore w))

/-- COPY_2D moves a rectangle of rows between pitches. At plain addresses with rows that do not meet, every byte of the
destination rows reads as its source byte did; no byte outside them changes. (What of this is the model's choice: log entries
31, 53.) -/
def Obligations.Copy2dMovesTheRows : Prop :=
  ∀ (s u : State) (dt : Nat) (ups : List Upset) (id : JobId) (j : Job) (c : List Byte),
    let src := fld c 24 8
    let dst := fld c 32 8
    let w := fld c 40 4
    let h := fld c 44 4
    let sp := fld c 48 4
    let dp := fld c 52 4
    let mode := fld c 56 1
    ((s.advance dt).upsets ups).takes id 5 0x11 u j c → j.done = 0 → fld c 58 1 ≤ 1 → zeros c 59 5 = true → mode ≤ 3 →
    0 < w → 0 < h →
    (u.plain j.client → mode = 0 → u.mem.badDram = [] → w ≤ dp → src + ((h - 1) * sp + w) ≤ u.usable →
      dst + ((h - 1) * dp + w) ≤ u.usable →
      dst + ((h - 1) * dp + w) ≤ src ∨ src + ((h - 1) * sp + w) ≤ dst →
      Completes (exec (.copy2d dt id ⟨none, ups⟩) s) fun t =>
        t.ends j St.OK [] 0 ∧
        (∀ x y, x < w → y < h → t.cell (.dram (dst + y * dp + x)) = u.cell (.dram (src + y * sp + x))) ∧
        (∀ a, (∀ x y, x < w → y < h → a ≠ dst + y * dp + x) → t.cell (.dram a) = u.cell (.dram a)) ∧
        (∀ a, t.cell (.mill a) = u.cell (.mill a)) ∧ (∀ f a, t.cell (.host f a) = u.cell (.host f a))) ∧
    (∀ v x, u.copyChecks j.client src ((h - 1) * sp + w) dst ((h - 1) * dp + w) mode
        (src % 256 == 0 && dst % 256 == 0 && w % 256 == 0 && sp % 256 == 0 && dp % 256 == 0) = (v, none) →
      v.copySpan j.client src sp dst dp w (mode == 1) (clearOf (fld c 58 1) (fld c 57 1)) 0 (w * h) = (x, none) →
      Completes (exec (.copy2d dt id ⟨none, ups⟩) s) fun t => t.ends j St.OK [] 0 ∧ t.sameStore x)

/-- Commands that write memory keep it in its canonical form. (What of this is the model's choice: log entry 4.) -/
def Obligations.MemoryStaysCanonical : Prop :=
  ∀ (s t : State) (i : Instr) (dt : Nat) (id : JobId) (cut : Option Nat) (ups : List Upset) (q : Fin 128) (n : Fin 64),
    i = .copy dt id ⟨cut, ups⟩ ∨ i = .copy2d dt id ⟨cut, ups⟩ ∨ i = .fill dt id ⟨cut, ups⟩ ∨ i = .ingestPut dt id ⟨cut, ups⟩ ∨
      i = .jobStart dt q ∨ i = .jobComplete dt q ∨ i = .heldRecordWrite dt n →
    Memory.wf s.mem = true → exec i s = .next t → Memory.wf t.mem = true

/-- INGEST_PUT publishes the frame it copied: the stream's next frame number, its count and its flag move on, and the job's
DETAIL holds the frame's number. In a list it is checked, and waits for its buffer, where it begins. (What of this is the
model's choice: log entry 32.) -/
def Obligations.IngestPutPublishes : Prop :=
  ∀ (s u v : State) (dt : Nat) (ups : List Upset) (id : JobId) (j : Job) (c : List Byte),
    let i := fld c 24 1
    let r := u.putRows i (fld c 40 4)
    let f := (u.stream i).f
    ((s.advance dt).upsets ups).takes id 5 0x16 u j c → j.done = 0 → i ≤ 15 →
    (j.inList = true → u.ingestBad j.client c = none ∧ u.bufFree i = true ∧ u.putRunning i j.id = false) →
    u.moveSpan j.client (fld c 32 8) r.1 (u.streamBuf i) r.2.1 r.2.2.1 0 (r.2.2.1 * r.2.2.2) = (v, none) →
    Completes (exec (.ingestPut dt id ⟨none, ups⟩) s) fun t =>
      t.ends j St.OK (toLe 4 f) 0 ∧ (t.stream i).f = f + 1 ∧ (t.stream i).frame = none ∧
      t.get (Od.IS_FRAMES i) = (u.get (Od.IS_FRAMES i) + 1) % 2 ^ widthOf (Od.IS_FRAMES i) ∧
      (u.get (Od.IS_FLAG i) ≠ 0xFFFF →
        t.flag false (u.get (Od.IS_FLAG i)) = { val := (f + 1) % 2 ^ 32, poison := false, p := 0 })

/-- CSI-2 packets: Frame Start opens a frame where its buffer is free and drops it otherwise; a long packet of the stream's data
type delivers the next row, with a wrong CRC noted; Frame End publishes the frame; a header with an uncorrectable error is
counted and has no other effect; Line Start and other short packets have none; a packet on a virtual channel without a stream is
counted as discarded; the receiver's state is what its lanes show. (What of this is the model's choice: log entry 32.) -/
def Obligations.CsiPacketsBuildFrames : Prop :=
  ∀ (s : State) (dt i : Nat) (crc : BitVec 16) (port : Fin 4) (p : CsiHeader) (payload : List Byte) (st : CsiLanes)
    (fr : OpenFrame),
    s.csiOn port.val = true →
    (p.ecc = .uncorrectable → exec (.frameStartPacket dt port p) s = .next ((s.advance dt).inc (Od.CSI_ECC_UNCORR port.val)) ∧
      exec (.longPacket dt port p payload crc) s = .next ((s.advance dt).inc (Od.CSI_ECC_UNCORR port.val)) ∧
      exec (.frameEndPacket dt port p) s = .next ((s.advance dt).inc (Od.CSI_ECC_UNCORR port.val))) ∧
    (p.ecc ≠ .uncorrectable → otherShort p = false → s.csiStream port.val p.vc.val = some i → (s.stream i).frame = none →
      Completes (exec (.frameStartPacket dt port p) s) fun t => t.mem = s.mem ∧ t.qs = (s.advance dt).qs ∧
        if s.bufFree i then (t.stream i).frame = some (OpenFrame.mk 0 0 (s.advance dt).ts
          (s.get Od.TICK_COUNT % 2 ^ 32) false false false false)
        else (t.stream i).frame = none ∧ (t.stream i).dropping = true ∧
          t.get (Od.IS_DROPPED i) = min (countLimit (Od.IS_DROPPED i)) (s.get (Od.IS_DROPPED i) + 1)) ∧
    (p.ecc ≠ .uncorrectable → s.csiStream port.val p.vc.val = some i → (s.stream i).frame = some fr →
      p.dtype.toNat ∈ [0x1E, 0x2B, 0x2C] → p.dtype.toNat = s.get (Od.IS_FMT i) →
      Completes (exec (.longPacket dt port p payload crc) s) fun t =>
        (∃ g, (t.stream i).frame = some g ∧ g.ts = fr.ts ∧
          (if fr.row < s.get (Od.IS_HEIGHT i) then g.row = fr.row + 1 else g.row = fr.row ∧ g.long = true ∧ t.mem = s.mem) ∧
          g.crc = (fr.crc || crc16 payload != crc.toNat)) ∧ (t.stream i).f = (s.stream i).f) ∧
    (p.ecc ≠ .uncorrectable → otherShort p = false → s.csiStream port.val p.vc.val = some i → (s.stream i).frame = some fr →
      Completes (exec (.frameEndPacket dt port p) s) fun t =>
        (t.stream i).frame = none ∧ (t.stream i).f = (s.stream i).f + 1 ∧
        t.get (Od.IS_FRAMES i) = (s.get (Od.IS_FRAMES i) + 1) % 2 ^ widthOf (Od.IS_FRAMES i) ∧
        (s.get (Od.IS_FLAG i) ≠ 0xFFFF → t.flag false (s.get (Od.IS_FLAG i)) =
          { val := ((s.stream i).f + 1) % 2 ^ 32, poison := false, p := 0 })) ∧
    (p.ecc = .good → otherShort p = true → exec (.frameStartPacket dt port p) s = .next (s.advance dt)) ∧
    (p.ecc = .good → otherShort p = false → s.csiStream port.val p.vc.val = none →
      exec (.frameStartPacket dt port p) s = .next ((s.advance dt).inc (Od.CSI_DT_DISCARD port.val)) ∧
      exec (.frameEndPacket dt port p) s = .next ((s.advance dt).inc (Od.CSI_DT_DISCARD port.val))) ∧
    Completes (exec (.csiLaneError dt port st) s) (fun t =>
      t.get (Od.CSI_STATE port.val) = (match st with | .stop => 1 | .receiving => 2 | .error => 3) ∧
      (∀ k, k ≠ Od.CSI_STATE port.val → t.get k = s.get k) ∧ t.mem = s.mem)

/-! ## Neural, raster, vision and solver engines -/

/-- RUN_NET and RUN_DIBBER whose layers all run end OK with the flags their layers raised and what they wrote; a run that stops
at a pre-emption point keeps its place, its flags and what its layers wrote so far; a band-out layer that passes its checks
binds to the frame in progress of its pipe. (What of this is the model's choice: log entries 15, 35, 52, 53.) -/
def Obligations.NetworksRun : Prop :=
  ∀ (s u v : State) (dt fl cut : Nat) (ups : List Upset) (id : JobId) (j : Job) (c : List Byte) (p : NetPos),
    let n := fld c 32 2
    let run := fun (env : Nat → Bool → LayerEnv) (k : Option Nat) =>
      u.runNetwork (fld c 24 8) n (fun i => env j.client (i + 1 == n)) j.netPos k
    let stands := fun (t : State) => t.sameStore v ∧
      ∃ k, t.job j.id = some k ∧ k.phase = .started ∧ k.netPos = p ∧ k.flags = j.flags ||| fl
    (((s.advance dt).upsets ups).takes id 1 0x10 u j c → netBad c 4096 = none → v.job j.id = u.job j.id →
      (run netEnv none = (v, fl, .ok) → Completes (exec (.runNet dt id ⟨none, ups⟩) s) fun t =>
        t.ends j St.OK [] fl ∧ t.sameStore v) ∧
      (run netEnv (some cut) = (v, fl, .stop p) → p.piece < 2 ^ 64 → Completes (exec (.runNet dt id ⟨some cut, ups⟩) s) stands)) ∧
    (((s.advance dt).upsets ups).takes id 1 0x18 u j c → netBad c 16 = none → v.job j.id = u.job j.id →
      (run dibEnv none = (v, fl, .ok) → Completes (exec (.runDibber dt id ⟨none, ups⟩) s) fun t =>
        t.ends j St.OK [] fl ∧ t.sameStore v) ∧
      (run dibEnv (some cut) = (v, fl, .stop p) → p.piece < 2 ^ 64 →
        Completes (exec (.runDibber dt id ⟨some cut, ups⟩) s) stands) ∧
      (∀ d, run dibEnv none = (v, fl, .bands d) → Completes (exec (.runDibber dt id ⟨none, ups⟩) s) fun t =>
        let q := (layerOf d none).tout.va % 4
        (∃ b, (t.pipe q).bandOut = some b ∧ b.job = j.id ∧ b.desc = d) ∧
        ((v.pipe q).frozen = false → .pending ∈ (v.pipe q).bands → ∃ o, t.job j.id = some o ∧ o.blocked = true)))

/-- A serving step that may begin takes the jobs next in line, decides them and, run to its end, counts and leaves each of them
finished; a step in progress goes on to the same end once its first job may use the quarter. (What of this is the model's
choice: log entries 36, 53, 54.) -/
def Obligations.ServingStepsFinishTheirJobs : Prop :=
  ∀ (s v : State) (dt : Nat) (k : Fin 8) (ups : List Upset) (x : SchedUnit) (j h : Job) (l m : List StepJob) (y : StepSt)
    (r : StepRun),
    let u := (s.advance dt).upsets ups
    let q := u.get (Od.SV_QUEUE k.val)
    let w := v.putServe k.val { v.serve k.val with step := some (StepRun.mk m y false 0) }
    let ended := fun (a : List StepJob) => Completes (exec (.servingStep dt k ⟨none, ups⟩) s) fun t =>
      t.get (Od.SV_STEPS k.val) = min (2 ^ 48 - 1) (s.get (Od.SV_STEPS k.val) + 1) ∧
      (t.serve k.val).step = none ∧ ∀ b ∈ a, ∀ o, t.job b.job = some o → o.phase = .finished
    u.alive = true → u.on (Od.SV_ENABLE k.val) = true →
    (u.stepRun k.val = none → u.nextInLine q = some j → u.place (u.get (Od.SV_QUARTER k.val)) = some x →
      u.outranked x (u.prio q) j.id = false → u.startAhead x q = false →
      u.takeStep q x [] (u.jobsOf q).length = (v, l) → l ≠ [] → v.decideStep k.val l = (y, m) →
      w.stepRun k.val = some (StepRun.mk m y false 0) → m.head?.bind (fun a => w.job a.job) = some h → w.mayIssue h = true →
      ended l) ∧
    (u.stepRun k.val = some r → r.jobs.head?.bind (fun a => u.job a.job) = some h → u.mayIssue h = true → ended r.jobs)

/-- LOAD_KERNEL of a container that passes every check loads it into the slot and takes its code bytes; one that fails leaves
the slots as they are, is counted, and ends the job FAULT with its reason. UNLOAD_KERNEL marks a loaded slot, which is emptied,
and the job ended, once no job that used it runs. (What of this is the model's choice: log entries 6, 7, 37.) -/
def Obligations.KernelsLoadAndUnload : Prop :=
  ∀ (s u v : State) (dt : Nat) (id : JobId) (j : Job) (c b : List Byte) (cl : Fin 64) (ks : Fin 16) (x : Kernel),
    let k := fld c 36 1
    ((s.advance dt).takes id 0 0x10 u j c → loadKernelBad c = none → fld c 32 4 ≤ 0x400000 →
      u.rd j.client (fld c 24 8) (fld c 32 4) = (v, b, none) →
      (v.containerRefused j.client k b = 0 → Completes (exec (.loadKernel dt id) s) fun t =>
        t.ends j St.OK [] 0 ∧ t.kernel j.client k = some (kernelOf b) ∧
        t.get Od.CODE_STORE_FREE = (s.get Od.CODE_STORE_FREE - codeBytesOf b) % 2 ^ widthOf Od.CODE_STORE_FREE) ∧
      (v.containerRefused j.client k b ≠ 0 → Completes (exec (.loadKernel dt id) s) fun t =>
        (∃ o, t.job j.id = some o ∧ o.phase = .finished ∧ o.status = St.FAULT) ∧ t.raster = s.raster ∧
        t.get Od.KC_REFUSED = min (countLimit Od.KC_REFUSED) (s.get Od.KC_REFUSED + 1))) ∧
    ((s.advance dt).takes id 0 0x11 u j c → fld c 24 1 ≤ 15 → zeros c 25 39 = true →
      (u.kernel j.client (fld c 24 1) = none → Completes (exec (.unloadKernel dt id) s) fun t =>
        t.ends j St.OK [] 0 ∧ t.sameStore u) ∧
      (u.kernel j.client (fld c 24 1) = some x → Completes (exec (.unloadKernel dt id) s) fun t =>
        (∃ y, t.kernel j.client (fld c 24 1) = some y ∧ y.unloading = true ∧ j.id ∈ y.waiting) ∧
        ∃ o, t.job j.id = some o ∧ o.blocked = true ∧ o.phase = .started)) ∧
    ((s.advance dt).kernel cl.val ks.val = some x → x.unloading = true →
      (∀ i ∈ x.users, ∀ o ∈ s.qs.jobs, o.id = i → o.phase ≠ .started) →
      Completes (exec (.kernelSlotEmptied dt cl ks) s) fun t =>
        t.kernel cl.val ks.val = none ∧
        ∀ i ∈ x.waiting, ∀ o, t.job i = some o → o.phase = .started → o.blocked = false)

/-- RENDER_PASS whose descriptor passes its checks and whose pass runs ends OK with the flags it raised; a tiled one takes the
bin store, or waits for it and takes it in its turn. DISPATCH of a loaded compute kernel ends OK once its workgroups have run. A
run of either that stops at a pre-emption point keeps its place. (What of this is the model's choice: log entries 7, 18, 19, 37,
53.) -/
def Obligations.PassesAndDispatchesComplete : Prop :=
  ∀ (s u v w : State) (dt fl cut : Nat) (ups : List Upset) (id : JobId) (j : Job) (c d args : List Byte) (k : Kernel)
    (x : PassRun) (n : Nat),
    let start := PassRun.start d
    let held := ({ v with raster := { v.raster with binHolder := some j.id } } : State)
    (((s.advance dt).upsets ups).takes id 0 0x12 u j c → j.done = 0 → fld c 24 8 % 64 = 0 → zeros c 32 32 = true →
      (u.binRelease j.id).rd j.client (fld c 24 8) 192 = (v, d, none) → v.passBad j.client d = none →
      (w.job j.id = u.job j.id →
        ((passOf d).tiled = false → v.passRun j start none = (w, fl, .ok, none) →
          Completes (exec (.renderPass dt id ⟨none, ups⟩) s) fun t => t.ends j St.OK [] fl ∧ t.sameStore w) ∧
        ((passOf d).tiled = false → v.passRun j start (some cut) = (w, fl, .ok, some (x, n)) →
          Completes (exec (.renderPass dt id ⟨some cut, ups⟩) s) fun t => t.sameStore w ∧ t.workOf j.id = some (.pass x) ∧
            t.job j.id = some { j with done := n, live := (0, 0), flags := j.flags ||| fl }) ∧
        ((passOf d).tiled = true → v.binTaken j.id = false → v.binWaiting = [] → held.passRun j start none = (w, fl, .ok, none) →
          Completes (exec (.renderPass dt id ⟨none, ups⟩) s) fun t =>
            t.ends j St.OK [] fl ∧ t.raster.binHolder = none ∧ t.sameStore w)) ∧
      ((passOf d).tiled = true → (v.binTaken j.id = true ∨ v.binWaiting ≠ []) →
        Completes (exec (.renderPass dt id ⟨none, ups⟩) s) fun t =>
          j.id ∈ t.raster.binQueue ∧ (∃ o, t.job j.id = some o ∧ o.blocked = true) ∧ t.workOf j.id = some (.pass start) ∧
          t.sameStore v)) ∧
    (let r := (s.advance dt).upsets ups
     let i : Job := { j with blocked := false }
     ∀ rest, r.binWaiting = id :: rest → r.job id = some j → r.workOf id = some (.pass x) → r.binHeld = false → r.mayIssue i = true →
      let taken := (({ r with raster := { r.raster with binHolder := some id, binQueue := rest } } : State).putJob i).begin_ i
      taken.passRun i x none = (w, fl, .ok, none) → w.job id = some i →
      Completes (exec (.binStoreAcquire dt id ⟨none, ups⟩) s) fun t =>
        t.ends i St.OK [] fl ∧ t.raster.binHolder = none ∧ t.sameStore w) ∧
    (((s.advance dt).upsets ups).takes id 0 0x13 u j c → j.done = 0 → (u.binRelease j.id).dispatchBad j c = none →
      (u.binRelease j.id).kernelFor j (fld c 24 1) = some k →
      (u.binRelease j.id).argBlock j.client (fld c 40 8) 0 40 [k] = (v, args, .ok) → w.job j.id = u.job j.id →
      (v.dispatchRun j k c args (DispatchRun.mk 0 none) none = (w, fl, .ok) →
        Completes (exec (.dispatch dt id ⟨none, ups⟩) s) fun t => t.ends j St.OK [] fl ∧ t.sameStore w) ∧
      (∀ g live, v.dispatchRun j k c args (DispatchRun.mk 0 none) (some cut) = (w, fl, .stop g n live) →
        Completes (exec (.dispatch dt id ⟨some cut, ups⟩) s) fun t => t.sameStore w ∧ t.workOf j.id = some (.dispatch g) ∧
          t.job j.id = some { j with done := n, live := live, flags := j.flags ||| fl }))

/-- A vision command that passes its checks and names a stream waits, divided into units; every unit's end is counted, and the
end of its last unit ends it OK. (What of this is the model's choice: log entry 38.) -/
def Obligations.VisionCommandsRunAsUnits : Prop :=
  ∀ (s u v w : State) (i : Instr) (dt op : Nat) (ups : List Upset) (id : JobId) (j : Job) (c : List Byte) (recs : Map (List Byte))
    (x : VisionUnit) (y : VisionWork),
    ((i = .vxDetect dt id ∧ op = 0x10) ∨ (i = .vxTrack dt id ∧ op = 0x11) ∨ (i = .vxMatch dt id ∧ op = 0x12) →
      (s.advance dt).takes id 2 op u j c → visionBad c = none → unitsOf c ≠ [] →
      (op ≠ 0x12 → (j.inList = true → u.streamFlagsOk j.client c = true) ∧
        (∀ n ∈ streamsOf c, u.get (Od.VS_OWNER n) = 0xFF ∨ u.get (Od.VS_OWNER n) = j.client) ∧
        (u.putJob { j with poisons := u.streamFlags j.client c }).rdRecords j.client op (fld c 32 8) (streamsOf c) =
          (v, recs, none, none)) →
      Completes (exec i s) fun t =>
        (∃ z ∈ t.vision.works, z.job = j.id ∧ z.cmd = c ∧ z.units = unitsOf c) ∧
        ∃ o, t.job j.id = some o ∧ o.blocked = true ∧ o.phase = .started ∧
          o.poisons = if op = 0x12 then [] else u.streamFlags j.client c) ∧
    (let r := ((s.advance dt).upsets ups).atPoint .vision
     r.vision.current = some (id, x) → r.visionWorks.find? (fun z => z.job == id) = some y → r.job id = some j →
      r.unitEffect y j.client x = (w, none) → ∀ k, w.job id = some k → k.phase = .started →
      Completes (exec (.visionUnitEnd dt ups) s) fun t =>
        t.get Od.VX_UNITS = min (2 ^ 48 - 1) (w.get Od.VX_UNITS + 1) ∧ t.mem = w.mem ∧
        (if y.units.erase x = [] then t.ends k St.OK [] 0 else t.job id = some k))

/-- SLV_UPLOAD of a structure that passes its checks makes it resident in its slot, owned by the job's client; a solve writes
its result to OUT_VA, counts, and ends OK or ILL_POSED with its flags, and until its commit nothing of it is written; a solve at
its deadline ends DEADLINE_MISSED with nothing written. (What of this is the model's choice: log entries 9, 39, 53.) -/
def Obligations.SolverCommandsComplete : Prop :=
  ∀ (s u v1 v2 v3 v4 v5 : State) (dt cut : Nat) (ups : List Upset) (id : JobId) (j : Job) (c ob ib : List Byte),
    (let cl := j.client
     let p := fld c 25 1
     let q := fld c 26 2
     let o := fld c 28 4
     let es := (List.range o).map (fun i => obsOf p q (fld ob (4 * i) 4))
     let n := storeBytes p q o (posePairs (fld c 48 8) (es.filterMap (·)))
     ((s.advance dt).upsets ups).takes id 3 0x10 u j c → solverBad c = none → u.uploadOk cl (fld c 24 1) = true →
      fld c 24 1 < 4 →
      u.placesBad cl [(32, fld c 32 8, 4 * o, false), (56, fld c 56 8, 4 * (6 * p + 3 * q + 3 * o), false)] = (v1, none, none) →
      v1.rd cl (fld c 32 8) (4 * o) = (v2, ob, none) → (∀ e ∈ es, e.isSome = true) → obsAscending (es.filterMap (·)) = true →
      v2.placesBad cl [(40, fld c 40 8, n, true)] = (v3, none, none) →
      v3.rd cl (fld c 56 8) (4 * (6 * p + 3 * q + 3 * o)) = (v4, ib, none) → v4.fillStore cl (fld c 40 8) n = (v5, none) →
      Completes (exec (.slvUpload dt id ups) s) fun t =>
        t.ends j St.OK (toLe 4 (posePairs (fld c 48 8) (es.filterMap (·))) ++ toLe 4 n) 0 ∧
        t.get (Od.ST_STATE (fld c 24 1)) = 2 ∧ t.get (Od.ST_OWNER (fld c 24 1)) = cl ∧
        ∃ z, mget t.solver.slots (fld c 24 1) = some z ∧ z.p = p ∧ z.q = q ∧ z.o = o ∧ z.fixed = fld c 48 8 ∧
          z.obs = es.filterMap (·) ∧ z.poses = f32Groups ib 0 p 6 ∧ z.points = f32Groups ib (24 * p) q 3) ∧
    (((s.advance dt).upsets ups).takes id 3 0x11 u j c → solverBad c = none → j.done = 0 →
      ∀ x y r, u.ownStructure j.client (fld c 24 1) = some x →
      u.placesBad j.client ((if fld c 48 4 == 0 then [] else [(40, fld c 40 8, 32 * fld c 48 4, false)]) ++
        [(52, fld c 52 8, 24 * x.p + 12 * x.q, true)]) = (v1, none, none) →
      v1.rd j.client (fld c 40 8) (32 * fld c 48 4) = (v2, ob, none) → x.updates ob (fld c 48 4) = (y, none) →
      v2.deadlinePassed j c = false →
      (BaRun.run (v2.baArgs c) (fld c 26 1) none (BaRun.start y) = (r, true) →
        v2.wr j.client (fld c 52 8) r.output = (v3, none) →
        v3.fillStore j.client x.store (storeBytes x.p x.q x.o (v2.get (Od.ST_PAIRS (fld c 24 1)))) = (v4, none) →
        Completes (exec (.slvSolveBa dt id ⟨none, ups⟩) s) fun t =>
          mget t.solver.slots (fld c 24 1) = some (r.stored x) ∧ t.mem = v4.mem ∧
          t.get Od.SLV_SOLVES = min (countLimit Od.SLV_SOLVES) (s.get Od.SLV_SOLVES + 1) ∧
          t.ends j (if r.ill = 0 then St.OK else St.ILL_POSED) (toLe 2 r.it ++ toLe 2 r.ill ++ toLe 4 r.cost ++ toLe 4 r.left) r.flags) ∧
      (BaRun.run (v2.baArgs c) (fld c 26 1) (some cut) (BaRun.start y) = (r, false) →
        Completes (exec (.slvSolveBa dt id ⟨some cut, ups⟩) s) fun t =>
          t.job id = some { j with done := r.it, live := (0, 0) } ∧ t.solver.slots = u.solver.slots ∧ t.mem = v2.mem)) ∧
    (((s.advance dt).upsets ups).takes id 3 0x12 u j c → solverBad c = none →
      u.placesBad j.client [(40, fld c 40 8, 4 * fld c 36 4 * fld c 24 2, false), (48, fld c 48 8, 4 * fld c 36 4, false),
        (56, fld c 56 8, 4 * fld c 24 2, true)] = (v1, none, none) →
      v1.rd j.client (fld c 40 8) (4 * fld c 36 4 * fld c 24 2) = (v2, ob, none) →
      v2.rd j.client (fld c 48 8) (4 * fld c 36 4) = (v3, ib, none) → v3.deadlinePassed j c = false →
      let r := denseSolve (v3.get Od.SLV_PIVOT_FLOOR) (fld c 24 2) (fld c 36 4) (fld c 32 4) (bitOf (fld c 26 1) 0)
        (fun i => fld ob (4 * i) 4) (fun i => fld ib (4 * i) 4)
      v3.wr j.client (fld c 56 8) (f32Bytes r.1) = (v4, none) →
      Completes (exec (.slvDense dt id ups) s) fun t =>
        t.mem = v4.mem ∧ t.get Od.SLV_SOLVES = min (countLimit Od.SLV_SOLVES) (s.get Od.SLV_SOLVES + 1) ∧
        t.ends j (if r.2.1 then St.ILL_POSED else St.OK) [] r.2.2) ∧
    ((s.advance dt).job id = some j → engineOf id.q.val = 3 → j.phase = .started → s.alive = true →
      slotOpcode ((s.advance dt).currentCmd j) = 0x11 ∨ slotOpcode ((s.advance dt).currentCmd j) = 0x12 →
      (s.advance dt).deadlinePassed j ((s.advance dt).currentCmd j) = true →
      Completes (exec (.solveDeadline dt id) s) fun t =>
        (∃ o, t.job id = some o ∧ o.phase = .finished ∧ o.status = St.DEADLINE_MISSED) ∧ t.mem = s.mem ∧ t.solver = s.solver)
/-! ## The Governor and the Scarecrow -/

/-- An expiry of the Governor, when its period has ended without a valid service, is counted and sets GOV_HOLD and IRQ_PEND bit
3; an expiry of the Scarecrow is counted and raises its stage with a class 0, code 3 event and IRQ_PEND bit 0, and a second one
takes the stage back to 0. Before its time an expiry is none. (What of this is the model's choice: log entries 27, 29.) -/
def Obligations.WatchdogsExpire : Prop :=
  ∀ (s : State) (dt : Nat),
    ((s.advance dt).governorDue = true → Completes (exec (.governorExpiry dt) s) fun t =>
      t.get Od.GOV_EXPIRIES = min (countLimit Od.GOV_EXPIRIES) (s.get Od.GOV_EXPIRIES + 1) ∧ t.get Od.GOV_HOLD = 1 ∧
      t.watch.govAt = s.now + dt ∧ t.watch.govTicks = 0 ∧ bitOf (t.get Od.IRQ_PEND) 3 = true) ∧
    ((s.advance dt).governorDue = false → exec (.governorExpiry dt) s = .next (s.advance dt)) ∧
    (s.scareRuns = true → s.watch.scareAt + s.watch.scareMs * 1000000 ≤ s.now + dt →
      Completes (exec (.scarecrowExpiry dt) s) fun t =>
        t.get Od.SCARE_EXPIRIES = min (countLimit Od.SCARE_EXPIRIES) (s.get Od.SCARE_EXPIRIES + 1) ∧
        t.watch.scareAt = s.now + dt ∧ t.get Od.SCARE_STAGE = (if s.get Od.SCARE_STAGE = 0 then 1 else 0) ∧
        (s.get Od.SCARE_STAGE = 0 → bitOf (t.get Od.IRQ_PEND) 0 = true ∧ ∃ e ∈ t.events, e.2.cls = 0 ∧ e.2.code = 3)) ∧
    (s.scareRuns = false ∨ s.now + dt < s.watch.scareAt + s.watch.scareMs * 1000000 →
      exec (.scarecrowExpiry dt) s = .next (s.advance dt))

/-! ## Millrace and the display -/

/-- At t_F a running pipe begins its next frame: FRAME_COUNT moves on, the frame is frozen where FREEZE or a hold says so, else
the staged palette becomes active and, on a layer that is not late for this frame, no PRESENT aimed at it or an earlier one
stays ready; a stopping pipe stops instead, its layers read 0. Before t_F nothing begins. (What of this is the model's choice:
log entries 26, 40, 51.) -/
def Obligations.FramesBegin : Prop :=
  ∀ (s : State) (dt : Nat) (p : Fin 4) (ups : List Upset),
    let u := (s.advance dt).upsets ups
    let due := (s.pipe p.val).tF + ceilDiv (s.frameNs p.val).1 (s.frameNs p.val).2 ≤ s.now + dt
    (s.beginsFrame p.val (s.now + dt) → Completes (exec (.frameStart dt p ups) s) fun t =>
      let f := t.get (Od.FRAME_COUNT p.val)
      f = min (2 ^ 48 - 1) (s.get (Od.FRAME_COUNT p.val) + 1) ∧
      (t.pipe p.val).tF = s.now + dt ∧ (t.pipe p.val).scanning = true ∧ (t.pipe p.val).abandoned = false ∧
      (s.opRunning .memTrain = false → (t.pipe p.val).frozen = (s.on (Od.FREEZE p.val) || t.on Od.GOV_HOLD ||
        t.get Od.CAS_HOLD_STATE != 0 || (s.pipe p.val).freezeNext)) ∧
      ((t.pipe p.val).frozen = false →
        (t.pipe p.val).palActive = padTo 1024 (s.getDom (Od.PALETTE p.val)) ∧
        ∀ r ∈ (t.pipe p.val).ready, r.layer ∈ s.presentLayers p.val → (r.layer, f % 2 ^ 32) ∉ (t.pipe p.val).late →
          ∃ g, r.target = some g ∧ frameDue f g = false)) ∧
    (s.framing p.val = true → due → (s.pipe p.val).stopping = true → Completes (exec (.frameStart dt p ups) s) fun t =>
      (t.pipe p.val).scanning = false ∧ (t.pipe p.val).stopping = false ∧ (t.pipe p.val).layers = [] ∧
      (t.pipe p.val).ready = [] ∧ (∀ l < 4, t.get (Od.L_STATE (layerNo p.val l)) = 0 ∧
        t.get (Od.L_VA (layerNo p.val l)) = 0 ∧ t.get (Od.L_RECT (layerNo p.val l)) = 0)) ∧
    (s.framing p.val = false ∨ ¬ due → exec (.frameStart dt p ups) s = .next u)

/-- The Dibber starts the next band where its slot is free and its deadline has not come; once every write of the band is
visible it is complete, counted in DIB_BANDS and seen by BAND_CRC. A band not complete at its deadline is counted, as a fallback
where the fallback source is valid and as a blank band where it is not, and filled so; a frozen frame's bands are filled from
the last complete frame and are not late. (What of this is the model's choice: log entries 20, 26.) -/
def Obligations.BandsRunOrAreFilled : Prop :=
  (∀ (s v : State) (dt : Nat) (p : Fin 4) (o : BandOut) (j : Job) (b : Nat) (moved : List (BitVec 32))
      (rows : List (List NumR)),
      let u := (s.advance dt).catchUp p.val
      u.bandJob p.val = some (o, j) → firstOpen (u.pipe p.val).bands = some b →
      ((u.pipe p.val).scanning = true → (u.pipe p.val).bands.getD b .pending = .pending →
        u.bandSlotFree p.val b = true → u.now < u.bandDeadline p.val b →
        u.mayIssue { j with blocked := false } = true → Completes (exec (.bandStart dt ⟨p, moved⟩) s) fun t =>
          (t.pipe p.val).bands = setBand (u.pipe p.val).bands b .inProgress ∧
          t.job j.id = some { j with blocked := false } ∧
          (s.on (Od.MR_LATCH p.val) = false → (t.pipe p.val).pose = (u.pipe p.val).pose ∧ t.sameStore u)) ∧
      ((u.pipe p.val).bands.getD b .pending = .inProgress → u.now ≤ u.bandDeadline p.val b →
        u.bandRowsOf p.val b o j.client = (v, rows, none) → Completes (exec (.bandComplete dt p) s) fun t =>
          (t.pipe p.val).bands = setBand (u.pipe p.val).bands b .complete ∧
          t.get Od.DIB_BANDS = min (countLimit Od.DIB_BANDS) (s.get Od.DIB_BANDS + 1) ∧
          (∃ e, (t.pipe p.val).seen = some e ∧ e.band = b ∧ e.fallback = false ∧ e.tick = s.get Od.TICK_COUNT ∧
            e.crc = crc32 (rows.flatMap (fun r => bandRowBytes (layerOf o.desc none).tout.c (r.map (·.1))))))) ∧
  (∀ (s : State) (dt : Nat) (p : Fin 4) (b : Nat) (moved : List (BitVec 32)),
      let u := (s.advance dt).catchUp p.val
      let x := u.pipe p.val
      (firstOpen x.bands = some b → x.scanning = true → u.bandDeadline p.val b ≤ u.now → x.blank = false →
        x.frozen = false → Completes (exec (.bandDeadline dt ⟨p, moved⟩) s) fun t =>
          (t.pipe p.val).bands = setBand x.bands b (if x.mr.fbValid then .filled else .blank) ∧
          t.get (Od.MR_FALLBACKS p.val) = (if x.mr.fbValid then min (countLimit (Od.MR_FALLBACKS p.val))
            (s.get (Od.MR_FALLBACKS p.val) + 1) else s.get (Od.MR_FALLBACKS p.val)) ∧
          t.get (Od.MR_BLANK_BANDS p.val) = (if x.mr.fbValid then s.get (Od.MR_BLANK_BANDS p.val) else
            min (countLimit (Od.MR_BLANK_BANDS p.val)) (s.get (Od.MR_BLANK_BANDS p.val) + 1)) ∧
          t.get (Od.MR_LAST_LATE p.val) = (s.get Od.TICK_COUNT % 2 ^ 24 * 256 + b) % 2 ^ 32) ∧
      (firstOpen x.bands = some b → x.scanning = true → u.bandDeadline p.val b ≤ u.now → x.blank = false →
        x.frozen = true → Completes (exec (.bandDeadline dt ⟨p, moved⟩) s) fun t =>
          (t.pipe p.val).bands = setBand x.bands b (if x.good.any (fun g => g.2.fbValid) then .filled else .blank) ∧
          t.get (Od.MR_FALLBACKS p.val) = s.get (Od.MR_FALLBACKS p.val) ∧
          t.get (Od.MR_BLANK_BANDS p.val) = s.get (Od.MR_BLANK_BANDS p.val) ∧
          t.get (Od.MR_LAST_LATE p.val) = s.get (Od.MR_LAST_LATE p.val)) ∧
      (firstOpen x.bands = none → exec (.bandDeadline dt ⟨p, moved⟩) s = .next u))

/-- HPD low for 2 ms takes a trained link to LOST with one class 4, code 4 event, and the frame in progress is unchecked; an HPD
pulse posts one class 4, code 5 event and leaves the link as it is. A port trains and goes UP, and goes DOWN with one class 6,
code 1 event, training again while it is enabled. (What of this is the model's choice: log entries 27, 41, 43.) -/
def Obligations.LinkEventsReport : Prop :=
  (∀ (s : State) (dt p : Nat) (port : Fin 2),
      (s.dpPipe port.val = some p → Completes (exec (.hpdLow dt port) s) fun t =>
        t.get (Od.HPD p) = 0 ∧ t.get (Od.LINK_STATE p) = (if s.get (Od.LINK_STATE p) = 2 then 3 else s.get (Od.LINK_STATE p)) ∧
        (s.get (Od.LINK_STATE p) = 2 → (t.pipe p).unchecked = true ∧ ∃ e ∈ t.events, e.2.cls = 4 ∧ e.2.code = 4) ∧
        t.mem = s.mem) ∧
      (s.dpPipe port.val = some p → s.get (Od.LINK_STATE p) = 2 → Completes (exec (.hpdPulse dt port) s) fun t =>
        t.get (Od.LINK_STATE p) = 2 ∧ (t.pipe p) = s.pipe p ∧ t.mem = s.mem ∧ ∃ e ∈ t.events, e.2.cls = 4 ∧ e.2.code = 5) ∧
      (s.dpPipe port.val = none → exec (.hpdLow dt port) s = .next (s.advance dt) ∧
        exec (.hpdPulse dt port) s = .next (s.advance dt))) ∧
  (∀ (s : State) (dt : Nat) (port : Fin 2) (peer : Fin 8),
      (s.alive = true → s.domOn 10 = true → s.on (Od.LP_EN port.val) = true → s.get (Od.LP_STATE port.val) ≠ 2 →
        Completes (exec (.leatLinkUp dt port peer) s) fun t =>
          t.get (Od.LP_STATE port.val) = 2 ∧ t.get (Od.LP_PEER port.val) = peer.val ∧ t.mem = s.mem ∧
          ∀ k, k ≠ Od.LP_STATE port.val → k ≠ Od.LP_PEER port.val → t.get k = s.get k) ∧
      (s.get (Od.LP_STATE port.val) = 2 → Completes (exec (.leatLinkDown dt port) s) fun t =>
        t.get (Od.LP_STATE port.val) = (if s.on (Od.LP_EN port.val) then 1 else 0) ∧ t.get (Od.LP_PEER port.val) = 0xFF ∧
        t.get (Od.LP_DOWN_COUNT port.val) = min (countLimit (Od.LP_DOWN_COUNT port.val)) (s.get (Od.LP_DOWN_COUNT port.val) + 1) ∧
        (∃ e ∈ t.events, e.2.cls = 6 ∧ e.2.code = 1) ∧ t.mem = s.mem ∧
        (s.inCascade = true → (∃ d < 8, s.get (Od.CAS_ROUTE d) = port.val + 1) → t.get Od.CAS_STATE = 3 ∧
          ∀ d < 8, s.get (Od.CAS_ROUTE d) = port.val + 1 → t.get (Od.CAS_ROUTE d) = 3)))

/-- A PRESENT that passes its checks is ready from that moment, and its job waits; a LINK_XFER in blanking is sent and ends OK
with its result, byte count and bytes; a PALETTE changes the entries it names in the staged palette and ends OK. (What of this
is the model's choice: log entries 40, 41.) -/
def Obligations.DisplayCommandsComplete : Prop :=
  ∀ (s u v : State) (dt : Nat) (id : JobId) (j : Job) (c b : List Byte) (reply : LinkReply),
    let p := fld c 24 1
    let read := fld c 25 1 % 2 == 1
    let got := if read then reply.bytes.take (fld c 27 1) else []
    ((s.advance dt).takes id 4 0x10 u j c → u.presentBad j c = none →
      (if (presentCfg j c).enable then u.probeSurface (presentCfg j c) else (u, none)) = (v, none) →
      Completes (exec (.present dt id) s) fun t =>
        t.job id = some { j with blocked := true } ∧
        ∃ r ∈ (t.pipe p).ready, r.layer = fld c 25 1 ∧ r.cfg = presentCfg j c ∧ r.at_ = s.now + dt ∧
          r.target = if bitOf (fld c 26 1) 6 then some (fld c 28 4) else none) ∧
    ((s.advance dt).takes id 4 0x11 u j c → u.xferBad j c = none → u.mayTransfer p = true →
      Completes (exec (.linkXfer dt id reply) s) fun t =>
        t.ends j St.OK (toLe 2 reply.result.val ++ toLe 2 got.length ++ got) 0 ∧ t.sameStore u ∧
        t.out = Out.linkXfer p (fld c 25 1) (fld c 26 1) (fld c 28 4) (if read then [] else slice c 32 (fld c 27 1))
          (if read then fld c 27 1 else 0) :: u.out) ∧
    ((s.advance dt).takes id 4 0x12 u j c → p ≤ 3 → u.ownsPipe j.client p = true → zeros c 27 5 = true → zeros c 40 24 = true →
      u.rd (u.pipeClient p) (fld c 32 8) (4 * (fld c 26 1 + 1)) = (v, b, none) →
      Completes (exec (.palette dt id) s) fun t =>
        t.ends j St.OK [] 0 ∧ t.mem = v.mem ∧ t.od = v.od ∧
        t.getDom (Od.PALETTE p) = putPalette (padTo 1024 (v.getDom (Od.PALETTE p))) (fld c 25 1) (fld c 26 1 + 1) b)

/-- The scan of a frame ends after its last line: a trained link has been sent one pixel per active pixel, an unchecked frame is
counted where the output check is on, and a complete frame becomes the last complete one and releases replaced buffers. (What of
this is the model's choice: log entries 26, 51.) -/
def Obligations.ScanEndsTheFrame : Prop :=
  ∀ (s : State) (dt : Nat) (p : Fin 4),
    let x := s.pipe p.val
    (x.scanning = true → x.tF + s.linesNs p.val (s.vTotal p.val) ≤ s.now + dt → Completes (exec (.frameScanEnd dt p) s) fun t =>
      (t.pipe p.val).scanning = false ∧
      (s.get (Od.LINK_STATE p.val) = 2 → ∃ px, Out.picture p.val (s.get (Od.FRAME_COUNT p.val)) px ∈ t.out ∧
        (s.dsiCommand p.val = false → px.length = s.get (Od.H_ACTIVE p.val) * s.get (Od.V_ACTIVE p.val))) ∧
      (x.unchecked = true → x.chk = true → t.get (Od.OUTCHK_SKIPPED p.val) =
        min (countLimit (Od.OUTCHK_SKIPPED p.val)) (s.get (Od.OUTCHK_SKIPPED p.val) + 1)) ∧
      (x.unchecked = false → x.chk = true → ∃ c, (t.pipe p.val).toCompare = some c ∧ c.counted = true ∧
        c.frame = s.get (Od.FRAME_COUNT p.val)) ∧
      (x.abandoned = false → x.frozen = false → x.blank = false → s.opRunning .memTrain = false →
        (t.pipe p.val).good.isSome = true ∧ (t.pipe p.val).releasing = [])) ∧
    (x.scanning = false ∨ s.now + dt < x.tF + s.linesNs p.val (s.vTotal p.val) →
      exec (.frameScanEnd dt p) s = .next (s.advance dt))

/-- An underrun is counted pixel by pixel: under REPEAT the frame goes on; otherwise it is abandoned at its first underrun
pixel, the next one is frozen, and no band of it is left to write. The two CRCs of a checked frame are compared: equal ones
count a frame; ones that differ, or a capture that lost decoding and reads 0, count a mismatch too and are recorded in
OUTCHK_LAST. (What of this is the model's choice: log entries 26, 51.) -/
def Obligations.UnderrunsAndChecksAreCounted : Prop :=
  (∀ (s : State) (dt : Nat) (p : Fin 4) (x y count : Nat),
      let u := s.advance dt
      let w := s.get (Od.H_ACTIVE p.val)
      let total := w * s.get (Od.V_ACTIVE p.val)
      let n := u.runLength p.val w (min count (total - scanNo w x y)) (scanNo w x y) 0
      let pix := fun (k : Nat) => min (countLimit (Od.UNDERRUN_PIX p.val)) (s.get (Od.UNDERRUN_PIX p.val) + k)
      (s.pipe p.val).scanning = true → (s.pipe p.val).abandoned = false → x < w → scanNo w x y < total →
      u.activeAt p.val ≤ s.now + dt → n ≠ 0 →
      Completes (exec (.underrun dt p x y count) s) fun t =>
        t.get (Od.UNDERRUN_FRAMES p.val) = (if (s.pipe p.val).underrunSeen then s.get (Od.UNDERRUN_FRAMES p.val) else
          min (countLimit (Od.UNDERRUN_FRAMES p.val)) (s.get (Od.UNDERRUN_FRAMES p.val) + 1)) ∧
        (t.pipe p.val).underrunSeen = true ∧
        (s.get (Od.UNDERRUN_MODE p.val) = 1 → t.get (Od.UNDERRUN_PIX p.val) = pix n ∧ (t.pipe p.val).abandoned = false ∧
          (t.pipe p.val).missing = (s.pipe p.val).missing ++ [(x, y, n)] ∧ t.mem = s.mem) ∧
        (s.get (Od.UNDERRUN_MODE p.val) ≠ 1 → (t.pipe p.val).abandoned = true ∧ (t.pipe p.val).freezeNext = true ∧
          (s.dsiCommand p.val = false → t.get (Od.UNDERRUN_PIX p.val) = pix (total - scanNo w x y)) ∧
          ∀ b ∈ (t.pipe p.val).bands, b ≠ .pending ∧ b ≠ .inProgress)) ∧
  (∀ (s : State) (dt : Nat) (p : Fin 4) (pins : Option (BitVec 32)) (c : ToCompare),
      let frames := min (countLimit (Od.OUTCHK_FRAMES p.val)) (s.get (Od.OUTCHK_FRAMES p.val) + 1)
      let pin := (pins.map (·.toNat)).getD 0
      ((s.pipe p.val).toCompare = some c → c.counted = true → pins.isSome = true → pin = c.crc →
        Completes (exec (.outchkCompare dt p pins) s) fun t =>
          t.get (Od.OUTCHK_FRAMES p.val) = frames ∧ (∀ k, k ≠ Od.OUTCHK_FRAMES p.val → t.get k = s.get k) ∧
          (t.pipe p.val).toCompare = none ∧ t.mem = s.mem) ∧
      ((s.pipe p.val).toCompare = some c → c.counted = true → pins = none ∨ pin ≠ c.crc →
        Completes (exec (.outchkCompare dt p pins) s) fun t =>
          t.get (Od.OUTCHK_FRAMES p.val) = frames ∧
          t.get (Od.OUTCHK_MISMATCH p.val) = min (countLimit (Od.OUTCHK_MISMATCH p.val)) (s.get (Od.OUTCHK_MISMATCH p.val) + 1) ∧
          t.get (Od.OUTCHK_LAST p.val) = (pin * 2 ^ 32 + c.crc) % 2 ^ 64 ∧
          (if s.inTick then ∃ g ∈ t.gather, g.cls = 4 ∧ g.code = 3 ∧ g.unit = p.val
            else ∃ e ∈ t.events, e.2.cls = 4 ∧ e.2.code = 3 ∧ e.2.unit = p.val) ∧
          (t.pipe p.val).toCompare = none ∧ t.mem = s.mem) ∧
      ((s.pipe p.val).toCompare = none → exec (.outchkCompare dt p pins) s = .next (s.advance dt)))

/-! ## Leat -/

/-- A packet too short, whose CRC or number is not the one due, or that breaks the layout of R333 is discarded and counted; one
for another device is sent on and has no other effect. (What of this is the model's choice: log entry 43.) -/
def Obligations.PacketsAreCheckedAndForwarded : Prop :=
  ∀ (s : State) (i : Instr) (dt : Nat) (port : Fin 2) (b : List Byte) (ty : Nat),
    let u := (s.advance dt).pruneXfers
    (i = .data dt port b ∧ ty = PT.DATA) ∨ (i = .doorbellPacket dt port b ∧ ty = PT.DOORBELL) ∨
      (i = .tickPacket dt port b ∧ ty = PT.TICK) ∨ (i = .seam dt port b ∧ ty = PT.SEAM) ∨
      (i = .readReq dt port b ∧ ty = PT.READ_REQ) ∨ (i = .readData dt port b ∧ ty = PT.READ_DATA) ∨
      (i = .done dt port b ∧ ty = PT.DONE) ∨ (i = .config dt port b ∧ ty = PT.CONFIG) →
    fld b 0 1 = ty → u.portUp port.val = true → u.alive = true →
    (b.length < 40 ∨ crc32 (b.take (b.length - 8)) ≠ fld b (b.length - 8) 4 ∨
        fld b (b.length - 4) 2 ≠ mgetD u.leat.rxSeq port.val 0 →
      exec i s = .next (u.inc (Od.LP_CRC_ERR port.val))) ∧
    (40 ≤ b.length → crc32 (b.take (b.length - 8)) = fld b (b.length - 8) 4 →
      fld b (b.length - 4) 2 = mgetD u.leat.rxSeq port.val 0 → pktLayoutOk b = false → Completes (exec i s) fun t =>
        t.get (Od.LP_CRC_ERR port.val) = min (countLimit (Od.LP_CRC_ERR port.val)) (s.get (Od.LP_CRC_ERR port.val) + 1) ∧
        (∀ k, k ≠ Od.LP_CRC_ERR port.val → t.get k = s.get k) ∧ t.mem = s.mem ∧ t.out = s.out ∧ t.qs = u.qs) ∧
    (∀ v p, u.receive port.val b = (v, some p) → p.bcast = false → p.dst ≠ v.devId → Completes (exec i s) fun t =>
      t.mem = s.mem ∧ (∀ k, (∀ q < 2, k ≠ Od.LP_TX_BYTES q) → t.get k = v.get k) ∧
      (∀ q, v.routeOf p.dst = some q → v.portUp q = true → ∃ f, t.out = Out.leat q f :: v.out ∧ f.take (f.length - 8) = p.bytes))

/-- DATA and READ_DATA write their payload where they say: at a plain address, every byte of the payload and no other. The last
packet of a DATA transfer is answered by DONE. A DOORBELL packet rings its queue as the owner would and answers with the code; a
READ_REQ is answered with the bytes read and DONE; neither changes a byte of memory. (What of this is the model's choice: log
entries 21, 43.) -/
def Obligations.ReceivedPacketsTakeEffect : Prop :=
  (∀ (s v w : State) (dt : Nat) (port : Fin 2) (b : List Byte) (p : Pkt),
      (s.advance dt).pruneXfers.receive port.val b = (v, some p) → p.bcast = false → p.dst = v.devId →
      let written := fun (t : State) (cl va : Nat) => t.mem = w.mem ∧ (v.plain cl → va + p.data.length ≤ v.usable →
        ∀ a, t.cell (.dram a) = if va ≤ a ∧ a < va + p.data.length then p.data.getD (a - va) 0 else v.cell (.dram a))
      (fld b 0 1 = PT.DATA → v.rxGot p < rxFailed → v.wr 0 p.addr p.data = (w, none) →
        Completes (exec (.data dt port b) s) fun t => written t 0 p.addr ∧
          (p.total ≤ v.rxGot p + p.data.length → ∀ q, v.routeOf p.src = some q → v.portUp q = true →
            ∃ f, Out.leat q f ∈ t.out ∧ fld f 0 1 = PT.DONE ∧ fld f 2 2 = p.xfer % 2 ^ 16)) ∧
      (∀ x va j, fld b 0 1 = PT.READ_DATA → v.xferOf p.xfer = some x → x.fetchVa = some va → v.job x.job = some j →
        p.src ∈ x.waiting → j.phase = .started → v.wr j.client (va + p.offset) p.data = (w, none) →
        exec (.readData dt port b) s = .next w ∧ written w j.client (va + p.offset))) ∧
  (∀ (s v w : State) (dt code : Nat) (port : Fin 2) (b r : List Byte) (p : Pkt),
      let q := fld p.data 0 1 % 128
      (s.advance dt).pruneXfers.receive port.val b = (v, some p) → p.bcast = false → p.dst = v.devId →
      (fld b 0 1 = PT.DOORBELL → v.ring (v.get (Od.Q_OWNER q)) q (fld p.data 2 2) = (w, code) →
        Completes (exec (.doorbellPacket dt port b) s) fun t =>
          t.qs = w.qs ∧ t.mem = w.mem ∧ t.get (Od.Q_TAIL q) = w.get (Od.Q_TAIL q) ∧
          t.get (Od.Q_DB_ERR q) =
            (if code = Ab.OK then w.get (Od.Q_DB_ERR q) else min (countLimit (Od.Q_DB_ERR q)) (w.get (Od.Q_DB_ERR q) + 1)) ∧
          ∀ o, w.routeOf p.src = some o → w.portUp o = true → ∃ f, Out.leat o f ∈ t.out ∧ fld f 0 1 = PT.DONE ∧
            fld f 34 2 = code % 2 ^ 16) ∧
      (fld b 0 1 = PT.READ_REQ → s.opRunning .memTrain = false → v.rd 0 p.addr p.total = (w, r, none) → Completes (exec (.readReq dt port b) s) fun t =>
        t.mem = w.mem ∧ ∀ o, w.routeOf p.src = some o → w.portUp o = true →
          (∃ f, Out.leat o f ∈ t.out ∧ fld f 0 1 = PT.DONE) ∧
          ∀ e ∈ pieces256 p.total, ∃ f, Out.leat o f ∈ t.out ∧ fld f 0 1 = PT.READ_DATA ∧ f.drop 32 = slice r e.1 e.2 ++
            f.drop (32 + (slice r e.1 e.2).length)))

/-- A follower's TICK packet completes its configuration, or sets the offset: a change counts a slip with one class 6, code 2
event; 100 µs without one count a slip too. A SEAM packet that is not for an enabled slot of its sender or does not fit it is
refused, and one whose half lies outside the Millpond settles nothing; the last packet of a seam within its deadline settles the
slot, counts it and sets its flag to the tick. At the deadline a slot without a complete seam is counted late. (What of this is
the model's choice: log entry 44.) -/
def Obligations.TickPacketsAndSeamsSettle : Prop :=
  (∀ (s v : State) (dt : Nat) (port : Fin 2) (b : List Byte) (p : Pkt),
      let off := subMod 48 p.ctick (v.get Od.TICK_COUNT)
      let slips := min (countLimit Od.CAS_SLIP) (s.get Od.CAS_SLIP + 1)
      ((s.advance dt).pruneXfers.receive port.val b = (v, some p) → fld b 0 1 = PT.TICK → p.bcast = true → p.src ≠ v.devId →
        v.on Od.CAS_ROLE = true → v.get Od.CAS_MASTER = p.src →
        (∀ m f, v.leat.configured = some (m, f) → subMod 48 p.ctick f < 2 ^ 47 → Completes (exec (.tickPacket dt port b) s) fun t =>
          t.get Od.CAS_STATE = 2 ∧ t.get Od.CAS_TICK_OFFSET = off ∧ t.get Od.CAS_MEMBERS = m % 2 ^ widthOf Od.CAS_MEMBERS ∧
          t.leat.configured = none) ∧
        ((∀ m f, v.leat.configured = some (m, f) → 2 ^ 47 ≤ subMod 48 p.ctick f) → v.inCascade = true → v.leat.resync = false → Completes (exec (.tickPacket dt port b) s) fun t =>
          (v.cascadeTick = p.ctick → t.get Od.CAS_TICK_OFFSET = v.get Od.CAS_TICK_OFFSET ∧ t.get Od.CAS_SLIP = s.get Od.CAS_SLIP) ∧
          (v.cascadeTick ≠ p.ctick → t.get Od.CAS_TICK_OFFSET = off ∧ t.get Od.CAS_SLIP = slips ∧
            ∃ e ∈ t.events, e.2.cls = 6 ∧ e.2.code = 2))) ∧
      (s.alive = true → s.on Od.CAS_ROLE = true → s.inCascade = true → s.tick.since ≠ 0 →
        s.tick.lastAt + 100000 ≤ s.now + dt → s.leat.timeoutFor ≠ some s.tick.lastAt →
        (∀ a, s.leat.tickPktAt = some a → a < s.tick.lastAt) → Completes (exec (.tickPacketTimeout dt) s) fun t =>
          t.get Od.CAS_SLIP = slips ∧ t.leat.resync = true ∧ ∃ e ∈ t.events, e.2.cls = 6 ∧ e.2.code = 2)) ∧
  (∀ (s v w x : State) (dt : Nat) (port : Fin 2) (b : List Byte) (p : Pkt) (k : Fin 8) (pl : Placed),
      let va := v.get (Od.SEAM_VA p.slot) + p.ctick % 2 * v.get (Od.SEAM_BYTES p.slot) + p.addr
      let ok := v.on (Od.SEAM_EN p.slot) = true ∧ v.get (Od.SEAM_SRC p.slot) = p.src ∧
        p.addr + p.data.length ≤ v.get (Od.SEAM_BYTES p.slot)
      ((s.advance dt).pruneXfers.receive port.val b = (v, some p) → fld b 0 1 = PT.SEAM → p.bcast = false → p.dst = v.devId →
        (¬ (p.slot ≤ 7 ∧ ok) → Completes (exec (.seam dt port b) s) fun t => t.mem = v.mem ∧ t.leat.seams = v.leat.seams) ∧
        (p.slot ≤ 7 → ok → v.seamClosed p.slot p.ctick = false → subMod 48 p.ctick v.cascadeTick ≤ 1 → v.rxGot p < rxFailed →
          v.placed 0 { off := 0, va := va, n := p.data.length, write := true, dram := false } = (x, .elsewhere) →
          Completes (exec (.seam dt port b) s) fun t => t.mem = x.mem ∧ t.leat.seams = v.leat.seams ∧
            t.get (Od.SEAM_OK p.slot) = v.get (Od.SEAM_OK p.slot)) ∧
        (p.slot ≤ 7 → ok → v.seamClosed p.slot p.ctick = false → subMod 48 p.ctick v.cascadeTick ≤ 1 → v.rxGot p < rxFailed →
          p.total ≤ v.rxGot p + p.data.length →
          v.placed 0 { off := 0, va := va, n := p.data.length, write := true, dram := false } = (x, pl) → pl ≠ .elsewhere →
          x.wr 0 va p.data = (w, none) → Completes (exec (.seam dt port b) s) fun t =>
            t.mem = w.mem ∧ t.get (Od.SEAM_OK p.slot) = min (countLimit (Od.SEAM_OK p.slot)) (v.get (Od.SEAM_OK p.slot) + 1) ∧
            (p.ctick, false) ∈ t.seamTicks p.slot ∧
            (v.get (Od.SEAM_FLAG p.slot) < 256 →
              t.flag false (v.get (Od.SEAM_FLAG p.slot)) = { val := p.ctick % 2 ^ 32, poison := false, p := 0 }))) ∧
      (s.alive = true → s.on (Od.SEAM_EN k.val) = true → s.on Od.TICK_EN = true → s.tick.since ≠ 0 →
        (∀ e ∈ s.seamTicks k.val, e.1 ≠ s.deadTick k.val) → Completes (exec (.seamDeadline dt k) s) fun t =>
          t.get (Od.SEAM_LATE k.val) = min (countLimit (Od.SEAM_LATE k.val)) (s.get (Od.SEAM_LATE k.val) + 1) ∧
          (s.deadTick k.val, true) ∈ t.seamTicks k.val))

/-- Formation: a follower sends DISCOVER and its replies on and answers with its own; a master gathers the replies and, once 10
ms have passed, is refused or configures its followers; CONFIG gives a follower its master and routes and starts its ticks; one
that tells of lost members degrades the cascade (the model's choice, log entry 21). (What of this is the model's choice: log
entries 21, 44.) -/
def Obligations.FormationRuns : Prop :=
  ∀ (s v : State) (dt t0 : Nat) (port : Fin 2) (b : List Byte) (p : Pkt),
    ((s.advance dt).receive port.val b = (v, some p) → fld b 0 1 = PT.DISCOVER → v.on Od.CAS_ROLE = true →
      Completes (exec (.discoverPacket dt port b) s) fun t =>
        t.mem = s.mem ∧ ∃ f, Out.leat port.val f ∈ t.out ∧ fld f 0 1 = PT.DISCOVER_REPLY) ∧
    ((s.advance dt).receive port.val b = (v, some p) → fld b 0 1 = PT.DISCOVER_REPLY →
      (v.on Od.CAS_ROLE = true → exec (.discoverReply dt port b) s = .next (v.sendOn (1 - port.val) p)) ∧
      (v.on Od.CAS_ROLE = false → v.get Od.CAS_STATE = 1 → v.leat.formAt.isSome = true →
        Completes (exec (.discoverReply dt port b) s) fun t =>
          t.leat.replies.length = v.leat.replies.length + 1 ∧ t.mem = s.mem ∧ ∀ k, t.get k = v.get k)) ∧
    ((s.advance dt).pruneXfers.receive port.val b = (v, some p) → fld b 0 1 = PT.CONFIG → p.bcast = false → p.dst = v.devId →
      v.on Od.CAS_ROLE = true → fld p.data 0 1 ≠ lossMark → fld p.data 1 1 ≠ 0 → Completes (exec (.config dt port b) s) fun t =>
        t.get Od.CAS_MASTER = fld p.data 0 1 ∧ t.leat.configured = some (fld p.data 1 1, (p.ctick + 3) % 2 ^ 48) ∧ t.on Od.TICK_EN = true ∧
        t.get Od.TICK_SRC = 1 ∧ (∀ d < 8, t.get (Od.CAS_ROUTE d) = fld p.data (2 + d) 1 % 4) ∧ t.mem = s.mem) ∧
    (∀ d < 8, (s.advance dt).pruneXfers.receive port.val b = (v, some p) → fld b 0 1 = PT.CONFIG → p.bcast = true →
      p.src ≠ v.devId → fld p.data 0 1 = lossMark → v.inCascade = true → bitOf (fld p.data 1 1) d = true →
      (v.routeOf d).isSome = true → Completes (exec (.config dt port b) s) fun t =>
        t.get Od.CAS_STATE = 3 ∧ t.get (Od.CAS_ROUTE d) = 3 ∧ bitOf (t.get Od.CAS_MEMBERS) d = false ∧
        (∃ e ∈ t.events, e.2.cls = 6 ∧ e.2.code = 3) ∧ t.mem = s.mem) ∧
    (s.leat.formAt = some t0 → t0 + 10000000 ≤ s.now + dt → Completes (exec (.formationCheck dt) s) fun t =>
      t.leat.formAt = none ∧ t.leat.replies = [] ∧ t.mem = s.mem ∧
      (s.formBad s.leat.replies = true → t.get Od.CAS_STATE = s.formBack) ∧
      (s.formBad s.leat.replies = false → t.get Od.CAS_MASTER = s.devId ∧ t.get (Od.CAS_ROUTE s.devId) = 0 ∧
        t.leat.formTick = some (s.get Od.TICK_COUNT + 3) ∧ t.get Od.CAS_MEMBERS = s.get Od.CAS_MEMBERS))

/-- LEAT_SEND, SEAM_SEND and LEAT_FETCH that pass their checks begin a transfer to the members they name, and their jobs wait
for DONE; no byte of local memory changes. The last DONE of a transfer ends its job: OK with the code of its doorbell where
every member took the data, FAULT where one refused or faulted; a refused doorbell is sent again at the next tick. (What of this
is the model's choice: log entries 21, 44.) -/
def Obligations.LeatTransfersBeginAndEnd : Prop :=
  (∀ (s u v : State) (dt : Nat) (id : JobId) (j : Job) (c b : List Byte) (cs : List Bool),
      let dev := fld c 44 1
      let begun := fun (t : State) (members : List Nat) (fetch : Option Nat) (db : Option (Nat × Nat)) =>
        t.job id = some { j with blocked := true } ∧ t.mem = v.mem ∧
        t.xferOf v.leat.nextId = some { id := v.leat.nextId, job := id, members := members, waiting := members,
                                        fetchVa := fetch, doorbell := db, code := 0, ctick := v.cascadeTick }
      ((s.advance dt).takes id 5 0x13 u j c → 1 ≤ fld c 40 4 → fld c 40 4 ≤ 2 ^ 31 → fld c 45 1 ≤ 1 → (fld c 45 1 = 1 → fld c 46 1 ≤ 127) →
        zeros c 47 1 = true → zeros c 50 14 = true → dev = 0xFF ∧ u.others ≠ [] ∨ dev ∈ u.others →
        fld c 32 8 + fld c 40 4 ≤ 2 ^ 40 → u.rd j.client (fld c 24 8) (fld c 40 4) = (v, b, none) →
        Completes (exec (.leatSend dt id) s) fun t =>
          begun t (if dev = 0xFF then u.others else [dev]) none (if fld c 45 1 = 1 then some (leatDoorbell c) else none)) ∧
      ((s.advance dt).takes id 5 0x14 u j c → fld c 45 1 ≤ 7 → zeros c 46 2 = true → zeros c 56 8 = true → dev ∈ u.others →
        1 ≤ fld c 32 4 → 1 ≤ fld c 36 4 →
        u.bandRowBytes j.client (fld c 24 8) (fld c 40 4) (fld c 32 4) (fld c 36 4) = (v, b, none) →
        Completes (exec (.seamSend dt id) s) fun t => begun t [dev] none none) ∧
      ((s.advance dt).takes id 5 0x15 u j c → 1 ≤ fld c 40 4 → fld c 40 4 ≤ 2 ^ 31 → zeros c 45 19 = true → dev ∈ u.others →
        fld c 24 8 + fld c 40 4 ≤ 2 ^ 40 → u.probe j.client (fld c 32 8) (fld c 40 4) true = (v, none, cs) →
        Completes (exec (.leatFetch dt id) s) fun t => begun t [dev] (some (fld c 32 8)) none)) ∧
  (∀ (s v : State) (dt : Nat) (port : Fin 2) (b : List Byte) (p : Pkt) (x : LeatXfer) (j : Job) (r : RefusedPkt),
      let kind := fld p.data 0 2
      ((s.advance dt).pruneXfers.receive port.val b = (v, some p) → fld b 0 1 = PT.DONE → p.bcast = false → p.dst = v.devId →
        v.xferOf p.xfer = some x → x.waiting = [p.src] → v.job x.job = some j → j.phase = .started →
        v.leat.refused = [] →
        (kind = 0 ∨ 6 ≤ kind → x.doorbell = none → Completes (exec (.done dt port b) s) fun t =>
          t.ends j St.OK (toLe 2 x.code) 0 ∧ t.xferOf p.xfer = none ∧ t.mem = v.mem) ∧
        (kind = 1 → x.doorbell = none → Completes (exec (.done dt port b) s) fun t =>
          t.ends j St.OK (toLe 2 1) 0 ∧ t.mem = v.mem) ∧
        (kind = 4 → x.doorbell = none → fld p.data 2 2 ≠ Ab.DOMAIN_CLOSING → fld p.data 2 2 ≠ Ab.DOMAIN_OFF →
          Completes (exec (.done dt port b) s) fun t => t.ends j St.OK (toLe 2 (fld p.data 2 2)) 0 ∧ t.mem = v.mem) ∧
        (kind = 2 ∨ kind = 3 ∨ kind = 5 → Completes (exec (.done dt port b) s) fun t =>
          t.ends j St.FAULT (faultDetail (if kind = 2 then 6 else if kind = 3 then 4 else 5) j.listIndex 0 0
            (if kind = 3 then fld p.data 8 8 else 0)) 0 ∧ t.mem = v.mem)) ∧
      (s.leat.refused = [r] → (s.advance dt).pruneXfers.leat = s.leat → s.xferOf (pktOf r.pkt).xfer = some x →
        r.tick ≠ s.get Od.TICK_COUNT → (pktOf r.pkt).dst ∉ x.waiting → Completes (exec (.leatPacketRetry dt) s) fun t =>
          t.leat.refused = [{ r with tries := r.tries + 1, tick := s.get Od.TICK_COUNT }] ∧ t.mem = s.mem ∧
          ∃ y, t.xferOf (pktOf r.pkt).xfer = some y ∧ (pktOf r.pkt).dst ∈ y.waiting))

/-! ## The test port -/

/-- Instructions that leave the balls to the device come into force, shift out 0b00001 and then their data register and change
no object but BSCAN_IR and no byte of memory: IDCODE shifts out the identification, BYPASS one 0, STRAP_READ the latched straps,
BAND_CRC and OUTCHK_LOOP the last band and the last compared frame, SAMPLE/PRELOAD the balls. Test-Logic-Reset brings IDCODE
into force. (What of this is the model's choice: log entry 45.) -/
def Obligations.TestPortReads : Prop :=
  ∀ (s : State) (dt : Nat) (x : TapIn),
    let shifts := fun (i : Instr) (ir width val : Nat) => Completes (exec i s) fun t =>
      t.get Od.BSCAN_IR = ir ∧ t.out = Out.tdo width val :: Out.tdo 5 1 :: s.out ∧ t.tap.captured = val ∧ t.mem = s.mem ∧
      t.boot = s.boot ∧ ∀ k, k ≠ Od.BSCAN_IR → t.get k = s.get k
    s.boot.phase ≠ .unpowered → s.tap.taken = false →
    shifts (.idcode dt x) 0x02 32 0x10740ABD ∧ shifts (.bypass dt x) 0x1F 1 0 ∧
    (let straps := if s.boot.latched then s.get Od.STRAP_RAW + (if s.boot.refclkOk then 2 ^ 16 else 0) + 2 ^ 17 else 0
     shifts (.strapRead dt x) 0x10 32 straps ∧
      Completes (exec (.strapRead dt x) s) fun t => t.tap = { s.tap with captured := straps }) ∧
    shifts (.bandCrc dt x) 0x11 64 s.bandCrcVal ∧
    (s.get Od.BSCAN_IR = 0x12 → shifts (.outchkLoop dt x) 0x12 96 s.outchkLoopVal) ∧
    (s.get Od.BSCAN_IR ≠ 0x12 → shifts (.outchkLoop dt x) 0x12 96 0) ∧
    shifts (.samplePreload dt x) 0x01 230 (x.balls % 2 ^ 230) ∧
    (Completes (exec (.tapReset dt x) s) fun t =>
      t.get Od.BSCAN_IR = 0x02 ∧ t.tap.pipe = 0 ∧ t.tap.port = 0 ∧ t.mem = s.mem ∧ t.out = s.out)

/-- Instructions that take the balls hold the device as PORST_N low does; the next instruction that gives them back lets it boot
from the straps where PORST_N is high, or wait for WRST_N, and on a board outside R85 what the device does is not defined. (What
of this is the model's choice: log entries 4, 45.) -/
def Obligations.TestPortTakesTheBalls : Prop :=
  ∀ (s : State) (i : Instr) (dt : Nat) (x : TapIn),
    s.boot.phase ≠ .unpowered →
    (i = .extest dt x ∨ i = .clamp dt x ∨ i = .highz dt x ∨ i = .extestPulse dt x ∨ i = .extestTrain dt x →
      Completes (exec i s) fun t =>
        t.tap.taken = true ∧ (s.tap.taken = false → t.boot.phase = .held ∧ t.qs.jobs = [] ∧ t.mem.dram = []) ∧
        t.boot.porst = s.boot.porst ∧ takesBalls (t.get Od.BSCAN_IR) = true) ∧
    (i = .idcode dt x ∨ i = .bypass dt x ∨ i = .strapRead dt x ∨ i = .bandCrc dt x ∨ i = .outchkLoop dt x ∨
        i = .samplePreload dt x ∨ i = .tapReset dt x → s.tap.taken = true →
      (s.boot.porst = true → offLimits x.board = true → exec i s = .fault .boardViolatesR85) ∧
      (s.boot.porst = false → Completes (exec i s) fun t => t.tap.taken = false ∧ t.boot.phase = s.boot.phase) ∧
      (s.boot.porst = true → offLimits x.board = false → Completes (exec i s) fun t =>
        t.tap.taken = false ∧ t.tB = s.now + dt ∧ t.get Od.STRAP_RAW = x.board.cfg.toNat ∧
        t.boot.phase = (if refclkCheck x.board.cfg.toNat x.board.measuredKHz then
          (if s.boot.wrst then .starting else .warmHeld) else .clockFail)))
end

