-- ==== Sys2Proof/Laws/Maps.lean ====
section
/-! SUPPORT. Laws of the finite maps: reading after writing, and that every operation keeps the canonical form. -/

namespace Sys2Proof.Machine

variable {α : Type}

@[simp] theorem mget_nil (k : Nat) : mget ([] : Map α) k = none := rfl

theorem mget_mset_self (m : Map α) (k : Nat) (v : α) : mget (mset m k v) k = some v := by
  induction m with
  | nil => simp [mset, mget]
  | cons e r ih =>
    obtain ⟨a, w⟩ := e
    simp only [mset]
    split
    · simp [mget]
    · split
      · simp [mget]
      · rename_i h
        have : (a == k) = false := by simpa [BEq.comm] using h
        simp [mget, this, ih]

theorem mget_mset_other (m : Map α) {k j : Nat} (v : α) (h : j ≠ k) : mget (mset m k v) j = mget m j := by
  induction m with
  | nil => simp [mset, mget, Ne.symm h]
  | cons e r ih =>
    obtain ⟨a, w⟩ := e
    simp only [mset]
    split
    · simp [mget, Ne.symm h]
    · split
      · rename_i hk
        have hk : k = a := by simpa using hk
        subst hk
        simp [mget, Ne.symm h]
      · simp only [mget, ih]

theorem mget_mdel_self (m : Map α) (k : Nat) : mget (mdel m k) k = none := by
  induction m with
  | nil => rfl
  | cons e r ih =>
    obtain ⟨a, w⟩ := e
    unfold mdel at *
    by_cases h : a = k
    · simp [h, ih]
    · simp [h, mget, ih]

theorem mget_mdel_other (m : Map α) {k j : Nat} (h : j ≠ k) : mget (mdel m k) j = mget m j := by
  induction m with
  | nil => rfl
  | cons e r ih =>
    obtain ⟨a, w⟩ := e
    unfold mdel at *
    by_cases hk : a = k
    · have : a ≠ j := by omega
      simp [hk, mget, ih, Ne.symm h]
    · simp [hk, mget, ih]

/-- What `mput` writes reads back, the default included. -/
theorem mgetD_mput_self [BEq α] [LawfulBEq α] (d : α) (m : Map α) (k : Nat) (v : α) : mgetD (mput d m k v) k d = v := by
  unfold mput mgetD
  split
  · rename_i h
    simp [mget_mdel_self, eq_of_beq h]
  · simp [mget_mset_self]

/-- `mput` leaves every other key alone. -/
theorem mgetD_mput_other [BEq α] (d e : α) (m : Map α) {k j : Nat} (v : α) (h : j ≠ k) :
    mgetD (mput d m k v) j e = mgetD m j e := by
  unfold mput mgetD
  split
  · rw [mget_mdel_other m h]
  · rw [mget_mset_other m v h]

/-! ## Canonical form -/

theorem rising_weaken {l : List Nat} {a b : Nat} (h : a ≤ b) (r : rising b l = true) : rising a l = true := by
  cases l with
  | nil => rfl
  | cons k t =>
    simp [rising] at *
    exact ⟨by omega, r.2⟩

theorem rising_filter (p : Nat → Bool) : ∀ (l : List Nat) (b : Nat), rising b l = true → rising b (l.filter p) = true
  | [], _, _ => rfl
  | k :: t, b, h => by
    simp [rising] at h
    have ih := rising_filter p t (k + 1) h.2
    by_cases hp : p k
    · simp [hp, rising, h.1, ih]
    · simp [hp]
      exact rising_weaken (by omega) ih

theorem rising_mset (v : α) (k : Nat) : ∀ (m : Map α) (b : Nat), b ≤ k → rising b (m.map (·.1)) = true →
    rising b ((mset m k v).map (·.1)) = true
  | [], b, hb, _ => by simp [mset, rising, hb]
  | (a, w) :: r, b, hb, h => by
    simp [rising] at h
    simp only [mset]
    split
    · rename_i hk
      simp [rising, hb, h.2]
      omega
    · split
      · rename_i hk
        have hk : k = a := by simpa using hk
        subst hk
        simp [rising, hb, h.2]
      · rename_i h1 h2
        have h2 : ¬ k = a := by simpa using h2
        have := rising_mset v k r (a + 1) (by omega) h.2
        simp [rising, h.1, this]

theorem mem_mset {m : Map α} {k : Nat} {v : α} {e : Nat × α} (h : e ∈ mset m k v) : e = (k, v) ∨ e ∈ m := by
  induction m with
  | nil => simpa [mset] using h
  | cons x r ih =>
    obtain ⟨a, w⟩ := x
    simp only [mset] at h
    split at h
    · simpa using h
    · split at h
      · rcases List.mem_cons.1 h with h | h
        · exact .inl h
        · exact .inr (List.mem_cons_of_mem _ h)
      · rcases List.mem_cons.1 h with h | h
        · exact .inr (h ▸ List.mem_cons_self)
        · rcases ih h with h | h
          · exact .inl h
          · exact .inr (List.mem_cons_of_mem _ h)

theorem mapWf_nil [BEq α] (d : α) : mapWf d ([] : Map α) = true := rfl

/-- Dropping entries by their keys keeps the form. -/
theorem mapWf_filter [BEq α] (d : α) (p : Nat → Bool) {m : Map α} (h : mapWf d m = true) :
    mapWf d (m.filter (fun e => p e.1)) = true := by
  unfold mapWf at *
  simp only [Bool.and_eq_true, List.all_eq_true] at *
  refine ⟨?_, fun e he => h.2 e (List.mem_filter.1 he).1⟩
  have : (m.filter (fun e => p e.1)).map (·.1) = (m.map (·.1)).filter p := by
    rw [List.filter_map]; rfl
  rw [this]
  exact rising_filter p _ _ h.1

theorem mapWf_mdel [BEq α] (d : α) {m : Map α} (k : Nat) (h : mapWf d m = true) : mapWf d (mdel m k) = true :=
  mapWf_filter d (· != k) h

theorem mapWf_mput [BEq α] (d : α) {m : Map α} (k : Nat) (v : α) (h : mapWf d m = true) : mapWf d (mput d m k v) = true := by
  unfold mput
  split
  · exact mapWf_mdel d k h
  · rename_i hv
    unfold mapWf at *
    simp only [Bool.and_eq_true, List.all_eq_true] at *
    refine ⟨rising_mset v k m 0 (Nat.zero_le _) h.1, fun e he => ?_⟩
    rcases mem_mset he with rfl | he
    · simpa using hv
    · exact h.2 e he

end Sys2Proof.Machine
end

