-- ==== Sys2Proof/Laws/State.lean ====
section
/-! SUPPORT. One lemma per field that an update of the state leaves alone, and what the updates write. -/

namespace Sys2Proof.Machine

/-! ## set -/

@[simp] theorem State.set_pending (s : State) (k v : Nat) : (s.set k v).pending = s.pending := rfl
@[simp] theorem State.set_now (s : State) (k v : Nat) : (s.set k v).now = s.now := rfl
@[simp] theorem State.set_tB (s : State) (k v : Nat) : (s.set k v).tB = s.tB := rfl
@[simp] theorem State.set_dom (s : State) (k v : Nat) : (s.set k v).dom = s.dom := rfl
@[simp] theorem State.set_written (s : State) (k v : Nat) : (s.set k v).written = s.written := rfl
@[simp] theorem State.set_events (s : State) (k v : Nat) : (s.set k v).events = s.events := rfl
@[simp] theorem State.set_gather (s : State) (k v : Nat) : (s.set k v).gather = s.gather := rfl
@[simp] theorem State.set_out (s : State) (k v : Nat) : (s.set k v).out = s.out := rfl
@[simp] theorem State.set_fresh (s : State) (k v : Nat) : (s.set k v).fresh = s.fresh := rfl
@[simp] theorem State.set_boot (s : State) (k v : Nat) : (s.set k v).boot = s.boot := rfl
@[simp] theorem State.set_tick (s : State) (k v : Nat) : (s.set k v).tick = s.tick := rfl
@[simp] theorem State.set_bap (s : State) (k v : Nat) : (s.set k v).bap = s.bap := rfl
@[simp] theorem State.set_wins (s : State) (k v : Nat) : (s.set k v).wins = s.wins := rfl
@[simp] theorem State.set_gens (s : State) (k v : Nat) : (s.set k v).gens = s.gens := rfl
@[simp] theorem State.set_ops (s : State) (k v : Nat) : (s.set k v).ops = s.ops := rfl
@[simp] theorem State.set_pwr (s : State) (k v : Nat) : (s.set k v).pwr = s.pwr := rfl
@[simp] theorem State.set_mem (s : State) (k v : Nat) : (s.set k v).mem = s.mem := rfl
@[simp] theorem State.set_qs (s : State) (k v : Nat) : (s.set k v).qs = s.qs := rfl
@[simp] theorem State.set_ingest (s : State) (k v : Nat) : (s.set k v).ingest = s.ingest := rfl
@[simp] theorem State.set_wheel (s : State) (k v : Nat) : (s.set k v).wheel = s.wheel := rfl
@[simp] theorem State.set_sched (s : State) (k v : Nat) : (s.set k v).sched = s.sched := rfl
@[simp] theorem State.set_serving (s : State) (k v : Nat) : (s.set k v).serving = s.serving := rfl
@[simp] theorem State.set_raster (s : State) (k v : Nat) : (s.set k v).raster = s.raster := rfl
@[simp] theorem State.set_vision (s : State) (k v : Nat) : (s.set k v).vision = s.vision := rfl
@[simp] theorem State.set_solver (s : State) (k v : Nat) : (s.set k v).solver = s.solver := rfl
@[simp] theorem State.set_pipes (s : State) (k v : Nat) : (s.set k v).pipes = s.pipes := rfl
@[simp] theorem State.set_leat (s : State) (k v : Nat) : (s.set k v).leat = s.leat := rfl
@[simp] theorem State.set_watch (s : State) (k v : Nat) : (s.set k v).watch = s.watch := rfl
@[simp] theorem State.set_tap (s : State) (k v : Nat) : (s.set k v).tap = s.tap := rfl

/-! ## setDom -/

@[simp] theorem State.setDom_pending (s : State) (k : Nat) (v : List Byte) : (s.setDom k v).pending = s.pending := rfl
@[simp] theorem State.setDom_now (s : State) (k : Nat) (v : List Byte) : (s.setDom k v).now = s.now := rfl
@[simp] theorem State.setDom_tB (s : State) (k : Nat) (v : List Byte) : (s.setDom k v).tB = s.tB := rfl
@[simp] theorem State.setDom_od (s : State) (k : Nat) (v : List Byte) : (s.setDom k v).od = s.od := rfl
@[simp] theorem State.setDom_written (s : State) (k : Nat) (v : List Byte) : (s.setDom k v).written = s.written := rfl
@[simp] theorem State.setDom_events (s : State) (k : Nat) (v : List Byte) : (s.setDom k v).events = s.events := rfl
@[simp] theorem State.setDom_gather (s : State) (k : Nat) (v : List Byte) : (s.setDom k v).gather = s.gather := rfl
@[simp] theorem State.setDom_out (s : State) (k : Nat) (v : List Byte) : (s.setDom k v).out = s.out := rfl
@[simp] theorem State.setDom_fresh (s : State) (k : Nat) (v : List Byte) : (s.setDom k v).fresh = s.fresh := rfl
@[simp] theorem State.setDom_boot (s : State) (k : Nat) (v : List Byte) : (s.setDom k v).boot = s.boot := rfl
@[simp] theorem State.setDom_tick (s : State) (k : Nat) (v : List Byte) : (s.setDom k v).tick = s.tick := rfl
@[simp] theorem State.setDom_bap (s : State) (k : Nat) (v : List Byte) : (s.setDom k v).bap = s.bap := rfl
@[simp] theorem State.setDom_wins (s : State) (k : Nat) (v : List Byte) : (s.setDom k v).wins = s.wins := rfl
@[simp] theorem State.setDom_gens (s : State) (k : Nat) (v : List Byte) : (s.setDom k v).gens = s.gens := rfl
@[simp] theorem State.setDom_ops (s : State) (k : Nat) (v : List Byte) : (s.setDom k v).ops = s.ops := rfl
@[simp] theorem State.setDom_pwr (s : State) (k : Nat) (v : List Byte) : (s.setDom k v).pwr = s.pwr := rfl
@[simp] theorem State.setDom_mem (s : State) (k : Nat) (v : List Byte) : (s.setDom k v).mem = s.mem := rfl
@[simp] theorem State.setDom_qs (s : State) (k : Nat) (v : List Byte) : (s.setDom k v).qs = s.qs := rfl
@[simp] theorem State.setDom_ingest (s : State) (k : Nat) (v : List Byte) : (s.setDom k v).ingest = s.ingest := rfl
@[simp] theorem State.setDom_wheel (s : State) (k : Nat) (v : List Byte) : (s.setDom k v).wheel = s.wheel := rfl
@[simp] theorem State.setDom_sched (s : State) (k : Nat) (v : List Byte) : (s.setDom k v).sched = s.sched := rfl
@[simp] theorem State.setDom_serving (s : State) (k : Nat) (v : List Byte) : (s.setDom k v).serving = s.serving := rfl
@[simp] theorem State.setDom_raster (s : State) (k : Nat) (v : List Byte) : (s.setDom k v).raster = s.raster := rfl
@[simp] theorem State.setDom_vision (s : State) (k : Nat) (v : List Byte) : (s.setDom k v).vision = s.vision := rfl
@[simp] theorem State.setDom_solver (s : State) (k : Nat) (v : List Byte) : (s.setDom k v).solver = s.solver := rfl
@[simp] theorem State.setDom_pipes (s : State) (k : Nat) (v : List Byte) : (s.setDom k v).pipes = s.pipes := rfl
@[simp] theorem State.setDom_leat (s : State) (k : Nat) (v : List Byte) : (s.setDom k v).leat = s.leat := rfl
@[simp] theorem State.setDom_watch (s : State) (k : Nat) (v : List Byte) : (s.setDom k v).watch = s.watch := rfl
@[simp] theorem State.setDom_tap (s : State) (k : Nat) (v : List Byte) : (s.setDom k v).tap = s.tap := rfl

/-! ## emit -/

@[simp] theorem State.emit_pending (s : State) (o : Out) : (s.emit o).pending = s.pending := rfl
@[simp] theorem State.emit_now (s : State) (o : Out) : (s.emit o).now = s.now := rfl
@[simp] theorem State.emit_tB (s : State) (o : Out) : (s.emit o).tB = s.tB := rfl
@[simp] theorem State.emit_od (s : State) (o : Out) : (s.emit o).od = s.od := rfl
@[simp] theorem State.emit_dom (s : State) (o : Out) : (s.emit o).dom = s.dom := rfl
@[simp] theorem State.emit_written (s : State) (o : Out) : (s.emit o).written = s.written := rfl
@[simp] theorem State.emit_events (s : State) (o : Out) : (s.emit o).events = s.events := rfl
@[simp] theorem State.emit_gather (s : State) (o : Out) : (s.emit o).gather = s.gather := rfl
@[simp] theorem State.emit_fresh (s : State) (o : Out) : (s.emit o).fresh = s.fresh := rfl
@[simp] theorem State.emit_boot (s : State) (o : Out) : (s.emit o).boot = s.boot := rfl
@[simp] theorem State.emit_tick (s : State) (o : Out) : (s.emit o).tick = s.tick := rfl
@[simp] theorem State.emit_bap (s : State) (o : Out) : (s.emit o).bap = s.bap := rfl
@[simp] theorem State.emit_wins (s : State) (o : Out) : (s.emit o).wins = s.wins := rfl
@[simp] theorem State.emit_gens (s : State) (o : Out) : (s.emit o).gens = s.gens := rfl
@[simp] theorem State.emit_ops (s : State) (o : Out) : (s.emit o).ops = s.ops := rfl
@[simp] theorem State.emit_pwr (s : State) (o : Out) : (s.emit o).pwr = s.pwr := rfl
@[simp] theorem State.emit_mem (s : State) (o : Out) : (s.emit o).mem = s.mem := rfl
@[simp] theorem State.emit_qs (s : State) (o : Out) : (s.emit o).qs = s.qs := rfl
@[simp] theorem State.emit_ingest (s : State) (o : Out) : (s.emit o).ingest = s.ingest := rfl
@[simp] theorem State.emit_wheel (s : State) (o : Out) : (s.emit o).wheel = s.wheel := rfl
@[simp] theorem State.emit_sched (s : State) (o : Out) : (s.emit o).sched = s.sched := rfl
@[simp] theorem State.emit_serving (s : State) (o : Out) : (s.emit o).serving = s.serving := rfl
@[simp] theorem State.emit_raster (s : State) (o : Out) : (s.emit o).raster = s.raster := rfl
@[simp] theorem State.emit_vision (s : State) (o : Out) : (s.emit o).vision = s.vision := rfl
@[simp] theorem State.emit_solver (s : State) (o : Out) : (s.emit o).solver = s.solver := rfl
@[simp] theorem State.emit_pipes (s : State) (o : Out) : (s.emit o).pipes = s.pipes := rfl
@[simp] theorem State.emit_leat (s : State) (o : Out) : (s.emit o).leat = s.leat := rfl
@[simp] theorem State.emit_watch (s : State) (o : Out) : (s.emit o).watch = s.watch := rfl
@[simp] theorem State.emit_tap (s : State) (o : Out) : (s.emit o).tap = s.tap := rfl

/-! ## spend -/

@[simp] theorem State.spend_pending (s : State) : (s.spend).pending = s.pending := rfl
@[simp] theorem State.spend_now (s : State) : (s.spend).now = s.now := rfl
@[simp] theorem State.spend_tB (s : State) : (s.spend).tB = s.tB := rfl
@[simp] theorem State.spend_od (s : State) : (s.spend).od = s.od := rfl
@[simp] theorem State.spend_dom (s : State) : (s.spend).dom = s.dom := rfl
@[simp] theorem State.spend_written (s : State) : (s.spend).written = s.written := rfl
@[simp] theorem State.spend_events (s : State) : (s.spend).events = s.events := rfl
@[simp] theorem State.spend_gather (s : State) : (s.spend).gather = s.gather := rfl
@[simp] theorem State.spend_out (s : State) : (s.spend).out = s.out := rfl
@[simp] theorem State.spend_boot (s : State) : (s.spend).boot = s.boot := rfl
@[simp] theorem State.spend_tick (s : State) : (s.spend).tick = s.tick := rfl
@[simp] theorem State.spend_bap (s : State) : (s.spend).bap = s.bap := rfl
@[simp] theorem State.spend_wins (s : State) : (s.spend).wins = s.wins := rfl
@[simp] theorem State.spend_gens (s : State) : (s.spend).gens = s.gens := rfl
@[simp] theorem State.spend_ops (s : State) : (s.spend).ops = s.ops := rfl
@[simp] theorem State.spend_pwr (s : State) : (s.spend).pwr = s.pwr := rfl
@[simp] theorem State.spend_mem (s : State) : (s.spend).mem = s.mem := rfl
@[simp] theorem State.spend_qs (s : State) : (s.spend).qs = s.qs := rfl
@[simp] theorem State.spend_ingest (s : State) : (s.spend).ingest = s.ingest := rfl
@[simp] theorem State.spend_wheel (s : State) : (s.spend).wheel = s.wheel := rfl
@[simp] theorem State.spend_sched (s : State) : (s.spend).sched = s.sched := rfl
@[simp] theorem State.spend_serving (s : State) : (s.spend).serving = s.serving := rfl
@[simp] theorem State.spend_raster (s : State) : (s.spend).raster = s.raster := rfl
@[simp] theorem State.spend_vision (s : State) : (s.spend).vision = s.vision := rfl
@[simp] theorem State.spend_solver (s : State) : (s.spend).solver = s.solver := rfl
@[simp] theorem State.spend_pipes (s : State) : (s.spend).pipes = s.pipes := rfl
@[simp] theorem State.spend_leat (s : State) : (s.spend).leat = s.leat := rfl
@[simp] theorem State.spend_watch (s : State) : (s.spend).watch = s.watch := rfl
@[simp] theorem State.spend_tap (s : State) : (s.spend).tap = s.tap := rfl

/-! ## advance -/

@[simp] theorem State.advance_pending (s : State) (dt : Nat) : (s.advance dt).pending = s.pending := rfl
@[simp] theorem State.advance_tB (s : State) (dt : Nat) : (s.advance dt).tB = s.tB := rfl
@[simp] theorem State.advance_od (s : State) (dt : Nat) : (s.advance dt).od = s.od := rfl
@[simp] theorem State.advance_dom (s : State) (dt : Nat) : (s.advance dt).dom = s.dom := rfl
@[simp] theorem State.advance_written (s : State) (dt : Nat) : (s.advance dt).written = s.written := rfl
@[simp] theorem State.advance_events (s : State) (dt : Nat) : (s.advance dt).events = s.events := rfl
@[simp] theorem State.advance_gather (s : State) (dt : Nat) : (s.advance dt).gather = s.gather := rfl
@[simp] theorem State.advance_out (s : State) (dt : Nat) : (s.advance dt).out = s.out := rfl
@[simp] theorem State.advance_fresh (s : State) (dt : Nat) : (s.advance dt).fresh = s.fresh := rfl
@[simp] theorem State.advance_boot (s : State) (dt : Nat) : (s.advance dt).boot = s.boot := rfl
@[simp] theorem State.advance_tick (s : State) (dt : Nat) : (s.advance dt).tick = s.tick := rfl
@[simp] theorem State.advance_bap (s : State) (dt : Nat) : (s.advance dt).bap = s.bap := rfl
@[simp] theorem State.advance_wins (s : State) (dt : Nat) : (s.advance dt).wins = s.wins := rfl
@[simp] theorem State.advance_gens (s : State) (dt : Nat) : (s.advance dt).gens = s.gens := rfl
@[simp] theorem State.advance_ops (s : State) (dt : Nat) : (s.advance dt).ops = s.ops := rfl
@[simp] theorem State.advance_pwr (s : State) (dt : Nat) : (s.advance dt).pwr = s.pwr := rfl
@[simp] theorem State.advance_mem (s : State) (dt : Nat) : (s.advance dt).mem = s.mem := rfl
@[simp] theorem State.advance_ingest (s : State) (dt : Nat) : (s.advance dt).ingest = s.ingest := rfl
@[simp] theorem State.advance_wheel (s : State) (dt : Nat) : (s.advance dt).wheel = s.wheel := rfl
@[simp] theorem State.advance_sched (s : State) (dt : Nat) : (s.advance dt).sched = s.sched := rfl
@[simp] theorem State.advance_serving (s : State) (dt : Nat) : (s.advance dt).serving = s.serving := rfl
@[simp] theorem State.advance_raster (s : State) (dt : Nat) : (s.advance dt).raster = s.raster := rfl
@[simp] theorem State.advance_vision (s : State) (dt : Nat) : (s.advance dt).vision = s.vision := rfl
@[simp] theorem State.advance_solver (s : State) (dt : Nat) : (s.advance dt).solver = s.solver := rfl
@[simp] theorem State.advance_pipes (s : State) (dt : Nat) : (s.advance dt).pipes = s.pipes := rfl
@[simp] theorem State.advance_leat (s : State) (dt : Nat) : (s.advance dt).leat = s.leat := rfl
@[simp] theorem State.advance_watch (s : State) (dt : Nat) : (s.advance dt).watch = s.watch := rfl
@[simp] theorem State.advance_tap (s : State) (dt : Nat) : (s.advance dt).tap = s.tap := rfl

/-! ## setWin -/

@[simp] theorem State.setWin_pending (s : State) (fn : Nat) (w : Win) : (s.setWin fn w).pending = s.pending := rfl
@[simp] theorem State.setWin_now (s : State) (fn : Nat) (w : Win) : (s.setWin fn w).now = s.now := rfl
@[simp] theorem State.setWin_tB (s : State) (fn : Nat) (w : Win) : (s.setWin fn w).tB = s.tB := rfl
@[simp] theorem State.setWin_od (s : State) (fn : Nat) (w : Win) : (s.setWin fn w).od = s.od := rfl
@[simp] theorem State.setWin_dom (s : State) (fn : Nat) (w : Win) : (s.setWin fn w).dom = s.dom := rfl
@[simp] theorem State.setWin_written (s : State) (fn : Nat) (w : Win) : (s.setWin fn w).written = s.written := rfl
@[simp] theorem State.setWin_events (s : State) (fn : Nat) (w : Win) : (s.setWin fn w).events = s.events := rfl
@[simp] theorem State.setWin_gather (s : State) (fn : Nat) (w : Win) : (s.setWin fn w).gather = s.gather := rfl
@[simp] theorem State.setWin_out (s : State) (fn : Nat) (w : Win) : (s.setWin fn w).out = s.out := rfl
@[simp] theorem State.setWin_fresh (s : State) (fn : Nat) (w : Win) : (s.setWin fn w).fresh = s.fresh := rfl
@[simp] theorem State.setWin_boot (s : State) (fn : Nat) (w : Win) : (s.setWin fn w).boot = s.boot := rfl
@[simp] theorem State.setWin_tick (s : State) (fn : Nat) (w : Win) : (s.setWin fn w).tick = s.tick := rfl
@[simp] theorem State.setWin_bap (s : State) (fn : Nat) (w : Win) : (s.setWin fn w).bap = s.bap := rfl
@[simp] theorem State.setWin_gens (s : State) (fn : Nat) (w : Win) : (s.setWin fn w).gens = s.gens := rfl
@[simp] theorem State.setWin_ops (s : State) (fn : Nat) (w : Win) : (s.setWin fn w).ops = s.ops := rfl
@[simp] theorem State.setWin_pwr (s : State) (fn : Nat) (w : Win) : (s.setWin fn w).pwr = s.pwr := rfl
@[simp] theorem State.setWin_mem (s : State) (fn : Nat) (w : Win) : (s.setWin fn w).mem = s.mem := rfl
@[simp] theorem State.setWin_qs (s : State) (fn : Nat) (w : Win) : (s.setWin fn w).qs = s.qs := rfl
@[simp] theorem State.setWin_ingest (s : State) (fn : Nat) (w : Win) : (s.setWin fn w).ingest = s.ingest := rfl
@[simp] theorem State.setWin_wheel (s : State) (fn : Nat) (w : Win) : (s.setWin fn w).wheel = s.wheel := rfl
@[simp] theorem State.setWin_sched (s : State) (fn : Nat) (w : Win) : (s.setWin fn w).sched = s.sched := rfl
@[simp] theorem State.setWin_serving (s : State) (fn : Nat) (w : Win) : (s.setWin fn w).serving = s.serving := rfl
@[simp] theorem State.setWin_raster (s : State) (fn : Nat) (w : Win) : (s.setWin fn w).raster = s.raster := rfl
@[simp] theorem State.setWin_vision (s : State) (fn : Nat) (w : Win) : (s.setWin fn w).vision = s.vision := rfl
@[simp] theorem State.setWin_solver (s : State) (fn : Nat) (w : Win) : (s.setWin fn w).solver = s.solver := rfl
@[simp] theorem State.setWin_pipes (s : State) (fn : Nat) (w : Win) : (s.setWin fn w).pipes = s.pipes := rfl
@[simp] theorem State.setWin_leat (s : State) (fn : Nat) (w : Win) : (s.setWin fn w).leat = s.leat := rfl
@[simp] theorem State.setWin_watch (s : State) (fn : Nat) (w : Win) : (s.setWin fn w).watch = s.watch := rfl
@[simp] theorem State.setWin_tap (s : State) (fn : Nat) (w : Win) : (s.setWin fn w).tap = s.tap := rfl

/-! ## endSession -/

@[simp] theorem State.endSession_pending (s : State) (node : Nat) : (s.endSession node).pending = s.pending := rfl
@[simp] theorem State.endSession_now (s : State) (node : Nat) : (s.endSession node).now = s.now := rfl
@[simp] theorem State.endSession_tB (s : State) (node : Nat) : (s.endSession node).tB = s.tB := rfl
@[simp] theorem State.endSession_od (s : State) (node : Nat) : (s.endSession node).od = s.od := rfl
@[simp] theorem State.endSession_dom (s : State) (node : Nat) : (s.endSession node).dom = s.dom := rfl
@[simp] theorem State.endSession_written (s : State) (node : Nat) : (s.endSession node).written = s.written := rfl
@[simp] theorem State.endSession_events (s : State) (node : Nat) : (s.endSession node).events = s.events := rfl
@[simp] theorem State.endSession_gather (s : State) (node : Nat) : (s.endSession node).gather = s.gather := rfl
@[simp] theorem State.endSession_out (s : State) (node : Nat) : (s.endSession node).out = s.out := rfl
@[simp] theorem State.endSession_fresh (s : State) (node : Nat) : (s.endSession node).fresh = s.fresh := rfl
@[simp] theorem State.endSession_boot (s : State) (node : Nat) : (s.endSession node).boot = s.boot := rfl
@[simp] theorem State.endSession_tick (s : State) (node : Nat) : (s.endSession node).tick = s.tick := rfl
@[simp] theorem State.endSession_wins (s : State) (node : Nat) : (s.endSession node).wins = s.wins := rfl
@[simp] theorem State.endSession_gens (s : State) (node : Nat) : (s.endSession node).gens = s.gens := rfl
@[simp] theorem State.endSession_ops (s : State) (node : Nat) : (s.endSession node).ops = s.ops := rfl
@[simp] theorem State.endSession_pwr (s : State) (node : Nat) : (s.endSession node).pwr = s.pwr := rfl
@[simp] theorem State.endSession_mem (s : State) (node : Nat) : (s.endSession node).mem = s.mem := rfl
@[simp] theorem State.endSession_qs (s : State) (node : Nat) : (s.endSession node).qs = s.qs := rfl
@[simp] theorem State.endSession_ingest (s : State) (node : Nat) : (s.endSession node).ingest = s.ingest := rfl
@[simp] theorem State.endSession_wheel (s : State) (node : Nat) : (s.endSession node).wheel = s.wheel := rfl
@[simp] theorem State.endSession_sched (s : State) (node : Nat) : (s.endSession node).sched = s.sched := rfl
@[simp] theorem State.endSession_serving (s : State) (node : Nat) : (s.endSession node).serving = s.serving := rfl
@[simp] theorem State.endSession_raster (s : State) (node : Nat) : (s.endSession node).raster = s.raster := rfl
@[simp] theorem State.endSession_vision (s : State) (node : Nat) : (s.endSession node).vision = s.vision := rfl
@[simp] theorem State.endSession_solver (s : State) (node : Nat) : (s.endSession node).solver = s.solver := rfl
@[simp] theorem State.endSession_pipes (s : State) (node : Nat) : (s.endSession node).pipes = s.pipes := rfl
@[simp] theorem State.endSession_leat (s : State) (node : Nat) : (s.endSession node).leat = s.leat := rfl
@[simp] theorem State.endSession_watch (s : State) (node : Nat) : (s.endSession node).watch = s.watch := rfl
@[simp] theorem State.endSession_tap (s : State) (node : Nat) : (s.endSession node).tap = s.tap := rfl

/-! ## putJob -/

@[simp] theorem State.putJob_pending (s : State) (j : Job) : (s.putJob j).pending = s.pending := rfl
@[simp] theorem State.putJob_now (s : State) (j : Job) : (s.putJob j).now = s.now := rfl
@[simp] theorem State.putJob_tB (s : State) (j : Job) : (s.putJob j).tB = s.tB := rfl
@[simp] theorem State.putJob_od (s : State) (j : Job) : (s.putJob j).od = s.od := rfl
@[simp] theorem State.putJob_dom (s : State) (j : Job) : (s.putJob j).dom = s.dom := rfl
@[simp] theorem State.putJob_written (s : State) (j : Job) : (s.putJob j).written = s.written := rfl
@[simp] theorem State.putJob_events (s : State) (j : Job) : (s.putJob j).events = s.events := rfl
@[simp] theorem State.putJob_gather (s : State) (j : Job) : (s.putJob j).gather = s.gather := rfl
@[simp] theorem State.putJob_out (s : State) (j : Job) : (s.putJob j).out = s.out := rfl
@[simp] theorem State.putJob_fresh (s : State) (j : Job) : (s.putJob j).fresh = s.fresh := rfl
@[simp] theorem State.putJob_boot (s : State) (j : Job) : (s.putJob j).boot = s.boot := rfl
@[simp] theorem State.putJob_tick (s : State) (j : Job) : (s.putJob j).tick = s.tick := rfl
@[simp] theorem State.putJob_bap (s : State) (j : Job) : (s.putJob j).bap = s.bap := rfl
@[simp] theorem State.putJob_wins (s : State) (j : Job) : (s.putJob j).wins = s.wins := rfl
@[simp] theorem State.putJob_gens (s : State) (j : Job) : (s.putJob j).gens = s.gens := rfl
@[simp] theorem State.putJob_ops (s : State) (j : Job) : (s.putJob j).ops = s.ops := rfl
@[simp] theorem State.putJob_pwr (s : State) (j : Job) : (s.putJob j).pwr = s.pwr := rfl
@[simp] theorem State.putJob_mem (s : State) (j : Job) : (s.putJob j).mem = s.mem := rfl
@[simp] theorem State.putJob_ingest (s : State) (j : Job) : (s.putJob j).ingest = s.ingest := rfl
@[simp] theorem State.putJob_wheel (s : State) (j : Job) : (s.putJob j).wheel = s.wheel := rfl
@[simp] theorem State.putJob_sched (s : State) (j : Job) : (s.putJob j).sched = s.sched := rfl
@[simp] theorem State.putJob_serving (s : State) (j : Job) : (s.putJob j).serving = s.serving := rfl
@[simp] theorem State.putJob_raster (s : State) (j : Job) : (s.putJob j).raster = s.raster := rfl
@[simp] theorem State.putJob_vision (s : State) (j : Job) : (s.putJob j).vision = s.vision := rfl
@[simp] theorem State.putJob_solver (s : State) (j : Job) : (s.putJob j).solver = s.solver := rfl
@[simp] theorem State.putJob_pipes (s : State) (j : Job) : (s.putJob j).pipes = s.pipes := rfl
@[simp] theorem State.putJob_leat (s : State) (j : Job) : (s.putJob j).leat = s.leat := rfl
@[simp] theorem State.putJob_watch (s : State) (j : Job) : (s.putJob j).watch = s.watch := rfl
@[simp] theorem State.putJob_tap (s : State) (j : Job) : (s.putJob j).tap = s.tap := rfl

/-! ## dropJob -/

@[simp] theorem State.dropJob_pending (s : State) (id : JobId) : (s.dropJob id).pending = s.pending := rfl
@[simp] theorem State.dropJob_now (s : State) (id : JobId) : (s.dropJob id).now = s.now := rfl
@[simp] theorem State.dropJob_tB (s : State) (id : JobId) : (s.dropJob id).tB = s.tB := rfl
@[simp] theorem State.dropJob_od (s : State) (id : JobId) : (s.dropJob id).od = s.od := rfl
@[simp] theorem State.dropJob_dom (s : State) (id : JobId) : (s.dropJob id).dom = s.dom := rfl
@[simp] theorem State.dropJob_written (s : State) (id : JobId) : (s.dropJob id).written = s.written := rfl
@[simp] theorem State.dropJob_events (s : State) (id : JobId) : (s.dropJob id).events = s.events := rfl
@[simp] theorem State.dropJob_gather (s : State) (id : JobId) : (s.dropJob id).gather = s.gather := rfl
@[simp] theorem State.dropJob_out (s : State) (id : JobId) : (s.dropJob id).out = s.out := rfl
@[simp] theorem State.dropJob_fresh (s : State) (id : JobId) : (s.dropJob id).fresh = s.fresh := rfl
@[simp] theorem State.dropJob_boot (s : State) (id : JobId) : (s.dropJob id).boot = s.boot := rfl
@[simp] theorem State.dropJob_tick (s : State) (id : JobId) : (s.dropJob id).tick = s.tick := rfl
@[simp] theorem State.dropJob_bap (s : State) (id : JobId) : (s.dropJob id).bap = s.bap := rfl
@[simp] theorem State.dropJob_wins (s : State) (id : JobId) : (s.dropJob id).wins = s.wins := rfl
@[simp] theorem State.dropJob_gens (s : State) (id : JobId) : (s.dropJob id).gens = s.gens := rfl
@[simp] theorem State.dropJob_ops (s : State) (id : JobId) : (s.dropJob id).ops = s.ops := rfl
@[simp] theorem State.dropJob_pwr (s : State) (id : JobId) : (s.dropJob id).pwr = s.pwr := rfl
@[simp] theorem State.dropJob_mem (s : State) (id : JobId) : (s.dropJob id).mem = s.mem := rfl
@[simp] theorem State.dropJob_ingest (s : State) (id : JobId) : (s.dropJob id).ingest = s.ingest := rfl
@[simp] theorem State.dropJob_wheel (s : State) (id : JobId) : (s.dropJob id).wheel = s.wheel := rfl
@[simp] theorem State.dropJob_sched (s : State) (id : JobId) : (s.dropJob id).sched = s.sched := rfl
@[simp] theorem State.dropJob_serving (s : State) (id : JobId) : (s.dropJob id).serving = s.serving := rfl
@[simp] theorem State.dropJob_raster (s : State) (id : JobId) : (s.dropJob id).raster = s.raster := rfl
@[simp] theorem State.dropJob_vision (s : State) (id : JobId) : (s.dropJob id).vision = s.vision := rfl
@[simp] theorem State.dropJob_solver (s : State) (id : JobId) : (s.dropJob id).solver = s.solver := rfl
@[simp] theorem State.dropJob_pipes (s : State) (id : JobId) : (s.dropJob id).pipes = s.pipes := rfl
@[simp] theorem State.dropJob_leat (s : State) (id : JobId) : (s.dropJob id).leat = s.leat := rfl
@[simp] theorem State.dropJob_watch (s : State) (id : JobId) : (s.dropJob id).watch = s.watch := rfl
@[simp] theorem State.dropJob_tap (s : State) (id : JobId) : (s.dropJob id).tap = s.tap := rfl

/-! ## finishJob -/

@[simp] theorem State.finishJob_pending (s : State) (j : Job) (st : Nat) (d : List Byte) : (s.finishJob j st d).pending = s.pending := rfl
@[simp] theorem State.finishJob_now (s : State) (j : Job) (st : Nat) (d : List Byte) : (s.finishJob j st d).now = s.now := rfl
@[simp] theorem State.finishJob_tB (s : State) (j : Job) (st : Nat) (d : List Byte) : (s.finishJob j st d).tB = s.tB := rfl
@[simp] theorem State.finishJob_od (s : State) (j : Job) (st : Nat) (d : List Byte) : (s.finishJob j st d).od = s.od := rfl
@[simp] theorem State.finishJob_dom (s : State) (j : Job) (st : Nat) (d : List Byte) : (s.finishJob j st d).dom = s.dom := rfl
@[simp] theorem State.finishJob_written (s : State) (j : Job) (st : Nat) (d : List Byte) : (s.finishJob j st d).written = s.written := rfl
@[simp] theorem State.finishJob_events (s : State) (j : Job) (st : Nat) (d : List Byte) : (s.finishJob j st d).events = s.events := rfl
@[simp] theorem State.finishJob_gather (s : State) (j : Job) (st : Nat) (d : List Byte) : (s.finishJob j st d).gather = s.gather := rfl
@[simp] theorem State.finishJob_out (s : State) (j : Job) (st : Nat) (d : List Byte) : (s.finishJob j st d).out = s.out := rfl
@[simp] theorem State.finishJob_fresh (s : State) (j : Job) (st : Nat) (d : List Byte) : (s.finishJob j st d).fresh = s.fresh := rfl
@[simp] theorem State.finishJob_boot (s : State) (j : Job) (st : Nat) (d : List Byte) : (s.finishJob j st d).boot = s.boot := rfl
@[simp] theorem State.finishJob_tick (s : State) (j : Job) (st : Nat) (d : List Byte) : (s.finishJob j st d).tick = s.tick := rfl
@[simp] theorem State.finishJob_bap (s : State) (j : Job) (st : Nat) (d : List Byte) : (s.finishJob j st d).bap = s.bap := rfl
@[simp] theorem State.finishJob_wins (s : State) (j : Job) (st : Nat) (d : List Byte) : (s.finishJob j st d).wins = s.wins := rfl
@[simp] theorem State.finishJob_gens (s : State) (j : Job) (st : Nat) (d : List Byte) : (s.finishJob j st d).gens = s.gens := rfl
@[simp] theorem State.finishJob_ops (s : State) (j : Job) (st : Nat) (d : List Byte) : (s.finishJob j st d).ops = s.ops := rfl
@[simp] theorem State.finishJob_pwr (s : State) (j : Job) (st : Nat) (d : List Byte) : (s.finishJob j st d).pwr = s.pwr := rfl
@[simp] theorem State.finishJob_mem (s : State) (j : Job) (st : Nat) (d : List Byte) : (s.finishJob j st d).mem = s.mem := rfl
@[simp] theorem State.finishJob_ingest (s : State) (j : Job) (st : Nat) (d : List Byte) : (s.finishJob j st d).ingest = s.ingest := rfl
@[simp] theorem State.finishJob_wheel (s : State) (j : Job) (st : Nat) (d : List Byte) : (s.finishJob j st d).wheel = s.wheel := rfl
@[simp] theorem State.finishJob_serving (s : State) (j : Job) (st : Nat) (d : List Byte) : (s.finishJob j st d).serving = s.serving := rfl
@[simp] theorem State.finishJob_raster (s : State) (j : Job) (st : Nat) (d : List Byte) : (s.finishJob j st d).raster = s.raster := rfl
@[simp] theorem State.finishJob_vision (s : State) (j : Job) (st : Nat) (d : List Byte) : (s.finishJob j st d).vision = s.vision := rfl
@[simp] theorem State.finishJob_solver (s : State) (j : Job) (st : Nat) (d : List Byte) : (s.finishJob j st d).solver = s.solver := rfl
@[simp] theorem State.finishJob_pipes (s : State) (j : Job) (st : Nat) (d : List Byte) : (s.finishJob j st d).pipes = s.pipes := rfl
@[simp] theorem State.finishJob_leat (s : State) (j : Job) (st : Nat) (d : List Byte) : (s.finishJob j st d).leat = s.leat := rfl
@[simp] theorem State.finishJob_watch (s : State) (j : Job) (st : Nat) (d : List Byte) : (s.finishJob j st d).watch = s.watch := rfl
@[simp] theorem State.finishJob_tap (s : State) (j : Job) (st : Nat) (d : List Byte) : (s.finishJob j st d).tap = s.tap := rfl

/-! ## putPipe -/

@[simp] theorem State.putPipe_pending (s : State) (p : Nat) (x : Pipe) : (s.putPipe p x).pending = s.pending := rfl
@[simp] theorem State.putPipe_now (s : State) (p : Nat) (x : Pipe) : (s.putPipe p x).now = s.now := rfl
@[simp] theorem State.putPipe_tB (s : State) (p : Nat) (x : Pipe) : (s.putPipe p x).tB = s.tB := rfl
@[simp] theorem State.putPipe_od (s : State) (p : Nat) (x : Pipe) : (s.putPipe p x).od = s.od := rfl
@[simp] theorem State.putPipe_dom (s : State) (p : Nat) (x : Pipe) : (s.putPipe p x).dom = s.dom := rfl
@[simp] theorem State.putPipe_written (s : State) (p : Nat) (x : Pipe) : (s.putPipe p x).written = s.written := rfl
@[simp] theorem State.putPipe_events (s : State) (p : Nat) (x : Pipe) : (s.putPipe p x).events = s.events := rfl
@[simp] theorem State.putPipe_gather (s : State) (p : Nat) (x : Pipe) : (s.putPipe p x).gather = s.gather := rfl
@[simp] theorem State.putPipe_out (s : State) (p : Nat) (x : Pipe) : (s.putPipe p x).out = s.out := rfl
@[simp] theorem State.putPipe_fresh (s : State) (p : Nat) (x : Pipe) : (s.putPipe p x).fresh = s.fresh := rfl
@[simp] theorem State.putPipe_boot (s : State) (p : Nat) (x : Pipe) : (s.putPipe p x).boot = s.boot := rfl
@[simp] theorem State.putPipe_tick (s : State) (p : Nat) (x : Pipe) : (s.putPipe p x).tick = s.tick := rfl
@[simp] theorem State.putPipe_bap (s : State) (p : Nat) (x : Pipe) : (s.putPipe p x).bap = s.bap := rfl
@[simp] theorem State.putPipe_wins (s : State) (p : Nat) (x : Pipe) : (s.putPipe p x).wins = s.wins := rfl
@[simp] theorem State.putPipe_gens (s : State) (p : Nat) (x : Pipe) : (s.putPipe p x).gens = s.gens := rfl
@[simp] theorem State.putPipe_ops (s : State) (p : Nat) (x : Pipe) : (s.putPipe p x).ops = s.ops := rfl
@[simp] theorem State.putPipe_pwr (s : State) (p : Nat) (x : Pipe) : (s.putPipe p x).pwr = s.pwr := rfl
@[simp] theorem State.putPipe_mem (s : State) (p : Nat) (x : Pipe) : (s.putPipe p x).mem = s.mem := rfl
@[simp] theorem State.putPipe_qs (s : State) (p : Nat) (x : Pipe) : (s.putPipe p x).qs = s.qs := rfl
@[simp] theorem State.putPipe_ingest (s : State) (p : Nat) (x : Pipe) : (s.putPipe p x).ingest = s.ingest := rfl
@[simp] theorem State.putPipe_wheel (s : State) (p : Nat) (x : Pipe) : (s.putPipe p x).wheel = s.wheel := rfl
@[simp] theorem State.putPipe_sched (s : State) (p : Nat) (x : Pipe) : (s.putPipe p x).sched = s.sched := rfl
@[simp] theorem State.putPipe_serving (s : State) (p : Nat) (x : Pipe) : (s.putPipe p x).serving = s.serving := rfl
@[simp] theorem State.putPipe_raster (s : State) (p : Nat) (x : Pipe) : (s.putPipe p x).raster = s.raster := rfl
@[simp] theorem State.putPipe_vision (s : State) (p : Nat) (x : Pipe) : (s.putPipe p x).vision = s.vision := rfl
@[simp] theorem State.putPipe_solver (s : State) (p : Nat) (x : Pipe) : (s.putPipe p x).solver = s.solver := rfl
@[simp] theorem State.putPipe_leat (s : State) (p : Nat) (x : Pipe) : (s.putPipe p x).leat = s.leat := rfl
@[simp] theorem State.putPipe_watch (s : State) (p : Nat) (x : Pipe) : (s.putPipe p x).watch = s.watch := rfl
@[simp] theorem State.putPipe_tap (s : State) (p : Nat) (x : Pipe) : (s.putPipe p x).tap = s.tap := rfl

/-! ## putStream -/

@[simp] theorem State.putStream_pending (s : State) (i : Nat) (x : Ingest) : (s.putStream i x).pending = s.pending := rfl
@[simp] theorem State.putStream_now (s : State) (i : Nat) (x : Ingest) : (s.putStream i x).now = s.now := rfl
@[simp] theorem State.putStream_tB (s : State) (i : Nat) (x : Ingest) : (s.putStream i x).tB = s.tB := rfl
@[simp] theorem State.putStream_od (s : State) (i : Nat) (x : Ingest) : (s.putStream i x).od = s.od := rfl
@[simp] theorem State.putStream_dom (s : State) (i : Nat) (x : Ingest) : (s.putStream i x).dom = s.dom := rfl
@[simp] theorem State.putStream_written (s : State) (i : Nat) (x : Ingest) : (s.putStream i x).written = s.written := rfl
@[simp] theorem State.putStream_events (s : State) (i : Nat) (x : Ingest) : (s.putStream i x).events = s.events := rfl
@[simp] theorem State.putStream_gather (s : State) (i : Nat) (x : Ingest) : (s.putStream i x).gather = s.gather := rfl
@[simp] theorem State.putStream_out (s : State) (i : Nat) (x : Ingest) : (s.putStream i x).out = s.out := rfl
@[simp] theorem State.putStream_fresh (s : State) (i : Nat) (x : Ingest) : (s.putStream i x).fresh = s.fresh := rfl
@[simp] theorem State.putStream_boot (s : State) (i : Nat) (x : Ingest) : (s.putStream i x).boot = s.boot := rfl
@[simp] theorem State.putStream_tick (s : State) (i : Nat) (x : Ingest) : (s.putStream i x).tick = s.tick := rfl
@[simp] theorem State.putStream_bap (s : State) (i : Nat) (x : Ingest) : (s.putStream i x).bap = s.bap := rfl
@[simp] theorem State.putStream_wins (s : State) (i : Nat) (x : Ingest) : (s.putStream i x).wins = s.wins := rfl
@[simp] theorem State.putStream_gens (s : State) (i : Nat) (x : Ingest) : (s.putStream i x).gens = s.gens := rfl
@[simp] theorem State.putStream_ops (s : State) (i : Nat) (x : Ingest) : (s.putStream i x).ops = s.ops := rfl
@[simp] theorem State.putStream_pwr (s : State) (i : Nat) (x : Ingest) : (s.putStream i x).pwr = s.pwr := rfl
@[simp] theorem State.putStream_mem (s : State) (i : Nat) (x : Ingest) : (s.putStream i x).mem = s.mem := rfl
@[simp] theorem State.putStream_qs (s : State) (i : Nat) (x : Ingest) : (s.putStream i x).qs = s.qs := rfl
@[simp] theorem State.putStream_wheel (s : State) (i : Nat) (x : Ingest) : (s.putStream i x).wheel = s.wheel := rfl
@[simp] theorem State.putStream_sched (s : State) (i : Nat) (x : Ingest) : (s.putStream i x).sched = s.sched := rfl
@[simp] theorem State.putStream_serving (s : State) (i : Nat) (x : Ingest) : (s.putStream i x).serving = s.serving := rfl
@[simp] theorem State.putStream_raster (s : State) (i : Nat) (x : Ingest) : (s.putStream i x).raster = s.raster := rfl
@[simp] theorem State.putStream_vision (s : State) (i : Nat) (x : Ingest) : (s.putStream i x).vision = s.vision := rfl
@[simp] theorem State.putStream_solver (s : State) (i : Nat) (x : Ingest) : (s.putStream i x).solver = s.solver := rfl
@[simp] theorem State.putStream_pipes (s : State) (i : Nat) (x : Ingest) : (s.putStream i x).pipes = s.pipes := rfl
@[simp] theorem State.putStream_leat (s : State) (i : Nat) (x : Ingest) : (s.putStream i x).leat = s.leat := rfl
@[simp] theorem State.putStream_watch (s : State) (i : Nat) (x : Ingest) : (s.putStream i x).watch = s.watch := rfl
@[simp] theorem State.putStream_tap (s : State) (i : Nat) (x : Ingest) : (s.putStream i x).tap = s.tap := rfl

/-! ## setPd -/

@[simp] theorem State.setPd_pending (s : State) (d v : Nat) : (s.setPd d v).pending = s.pending := rfl
@[simp] theorem State.setPd_now (s : State) (d v : Nat) : (s.setPd d v).now = s.now := rfl
@[simp] theorem State.setPd_tB (s : State) (d v : Nat) : (s.setPd d v).tB = s.tB := rfl
@[simp] theorem State.setPd_dom (s : State) (d v : Nat) : (s.setPd d v).dom = s.dom := rfl
@[simp] theorem State.setPd_written (s : State) (d v : Nat) : (s.setPd d v).written = s.written := rfl
@[simp] theorem State.setPd_events (s : State) (d v : Nat) : (s.setPd d v).events = s.events := rfl
@[simp] theorem State.setPd_gather (s : State) (d v : Nat) : (s.setPd d v).gather = s.gather := rfl
@[simp] theorem State.setPd_out (s : State) (d v : Nat) : (s.setPd d v).out = s.out := rfl
@[simp] theorem State.setPd_fresh (s : State) (d v : Nat) : (s.setPd d v).fresh = s.fresh := rfl
@[simp] theorem State.setPd_boot (s : State) (d v : Nat) : (s.setPd d v).boot = s.boot := rfl
@[simp] theorem State.setPd_tick (s : State) (d v : Nat) : (s.setPd d v).tick = s.tick := rfl
@[simp] theorem State.setPd_bap (s : State) (d v : Nat) : (s.setPd d v).bap = s.bap := rfl
@[simp] theorem State.setPd_wins (s : State) (d v : Nat) : (s.setPd d v).wins = s.wins := rfl
@[simp] theorem State.setPd_gens (s : State) (d v : Nat) : (s.setPd d v).gens = s.gens := rfl
@[simp] theorem State.setPd_ops (s : State) (d v : Nat) : (s.setPd d v).ops = s.ops := rfl
@[simp] theorem State.setPd_mem (s : State) (d v : Nat) : (s.setPd d v).mem = s.mem := rfl
@[simp] theorem State.setPd_qs (s : State) (d v : Nat) : (s.setPd d v).qs = s.qs := rfl
@[simp] theorem State.setPd_ingest (s : State) (d v : Nat) : (s.setPd d v).ingest = s.ingest := rfl
@[simp] theorem State.setPd_wheel (s : State) (d v : Nat) : (s.setPd d v).wheel = s.wheel := rfl
@[simp] theorem State.setPd_sched (s : State) (d v : Nat) : (s.setPd d v).sched = s.sched := rfl
@[simp] theorem State.setPd_serving (s : State) (d v : Nat) : (s.setPd d v).serving = s.serving := rfl
@[simp] theorem State.setPd_raster (s : State) (d v : Nat) : (s.setPd d v).raster = s.raster := rfl
@[simp] theorem State.setPd_vision (s : State) (d v : Nat) : (s.setPd d v).vision = s.vision := rfl
@[simp] theorem State.setPd_solver (s : State) (d v : Nat) : (s.setPd d v).solver = s.solver := rfl
@[simp] theorem State.setPd_pipes (s : State) (d v : Nat) : (s.setPd d v).pipes = s.pipes := rfl
@[simp] theorem State.setPd_leat (s : State) (d v : Nat) : (s.setPd d v).leat = s.leat := rfl
@[simp] theorem State.setPd_watch (s : State) (d v : Nat) : (s.setPd d v).watch = s.watch := rfl
@[simp] theorem State.setPd_tap (s : State) (d v : Nat) : (s.setPd d v).tap = s.tap := rfl

/-! ## dropCache -/

@[simp] theorem State.dropCache_pending (s : State) (cl : Nat) : (s.dropCache cl).pending = s.pending := rfl
@[simp] theorem State.dropCache_now (s : State) (cl : Nat) : (s.dropCache cl).now = s.now := rfl
@[simp] theorem State.dropCache_tB (s : State) (cl : Nat) : (s.dropCache cl).tB = s.tB := rfl
@[simp] theorem State.dropCache_od (s : State) (cl : Nat) : (s.dropCache cl).od = s.od := rfl
@[simp] theorem State.dropCache_dom (s : State) (cl : Nat) : (s.dropCache cl).dom = s.dom := rfl
@[simp] theorem State.dropCache_written (s : State) (cl : Nat) : (s.dropCache cl).written = s.written := rfl
@[simp] theorem State.dropCache_events (s : State) (cl : Nat) : (s.dropCache cl).events = s.events := rfl
@[simp] theorem State.dropCache_gather (s : State) (cl : Nat) : (s.dropCache cl).gather = s.gather := rfl
@[simp] theorem State.dropCache_out (s : State) (cl : Nat) : (s.dropCache cl).out = s.out := rfl
@[simp] theorem State.dropCache_fresh (s : State) (cl : Nat) : (s.dropCache cl).fresh = s.fresh := rfl
@[simp] theorem State.dropCache_boot (s : State) (cl : Nat) : (s.dropCache cl).boot = s.boot := rfl
@[simp] theorem State.dropCache_tick (s : State) (cl : Nat) : (s.dropCache cl).tick = s.tick := rfl
@[simp] theorem State.dropCache_bap (s : State) (cl : Nat) : (s.dropCache cl).bap = s.bap := rfl
@[simp] theorem State.dropCache_wins (s : State) (cl : Nat) : (s.dropCache cl).wins = s.wins := rfl
@[simp] theorem State.dropCache_gens (s : State) (cl : Nat) : (s.dropCache cl).gens = s.gens := rfl
@[simp] theorem State.dropCache_ops (s : State) (cl : Nat) : (s.dropCache cl).ops = s.ops := rfl
@[simp] theorem State.dropCache_pwr (s : State) (cl : Nat) : (s.dropCache cl).pwr = s.pwr := rfl
@[simp] theorem State.dropCache_qs (s : State) (cl : Nat) : (s.dropCache cl).qs = s.qs := rfl
@[simp] theorem State.dropCache_ingest (s : State) (cl : Nat) : (s.dropCache cl).ingest = s.ingest := rfl
@[simp] theorem State.dropCache_wheel (s : State) (cl : Nat) : (s.dropCache cl).wheel = s.wheel := rfl
@[simp] theorem State.dropCache_sched (s : State) (cl : Nat) : (s.dropCache cl).sched = s.sched := rfl
@[simp] theorem State.dropCache_serving (s : State) (cl : Nat) : (s.dropCache cl).serving = s.serving := rfl
@[simp] theorem State.dropCache_raster (s : State) (cl : Nat) : (s.dropCache cl).raster = s.raster := rfl
@[simp] theorem State.dropCache_vision (s : State) (cl : Nat) : (s.dropCache cl).vision = s.vision := rfl
@[simp] theorem State.dropCache_solver (s : State) (cl : Nat) : (s.dropCache cl).solver = s.solver := rfl
@[simp] theorem State.dropCache_pipes (s : State) (cl : Nat) : (s.dropCache cl).pipes = s.pipes := rfl
@[simp] theorem State.dropCache_leat (s : State) (cl : Nat) : (s.dropCache cl).leat = s.leat := rfl
@[simp] theorem State.dropCache_watch (s : State) (cl : Nat) : (s.dropCache cl).watch = s.watch := rfl
@[simp] theorem State.dropCache_tap (s : State) (cl : Nat) : (s.dropCache cl).tap = s.tap := rfl

/-! ## dropBlock -/

@[simp] theorem State.dropBlock_pending (s : State) (k : Nat) : (s.dropBlock k).pending = s.pending := rfl
@[simp] theorem State.dropBlock_now (s : State) (k : Nat) : (s.dropBlock k).now = s.now := rfl
@[simp] theorem State.dropBlock_tB (s : State) (k : Nat) : (s.dropBlock k).tB = s.tB := rfl
@[simp] theorem State.dropBlock_od (s : State) (k : Nat) : (s.dropBlock k).od = s.od := rfl
@[simp] theorem State.dropBlock_dom (s : State) (k : Nat) : (s.dropBlock k).dom = s.dom := rfl
@[simp] theorem State.dropBlock_written (s : State) (k : Nat) : (s.dropBlock k).written = s.written := rfl
@[simp] theorem State.dropBlock_events (s : State) (k : Nat) : (s.dropBlock k).events = s.events := rfl
@[simp] theorem State.dropBlock_gather (s : State) (k : Nat) : (s.dropBlock k).gather = s.gather := rfl
@[simp] theorem State.dropBlock_out (s : State) (k : Nat) : (s.dropBlock k).out = s.out := rfl
@[simp] theorem State.dropBlock_fresh (s : State) (k : Nat) : (s.dropBlock k).fresh = s.fresh := rfl
@[simp] theorem State.dropBlock_boot (s : State) (k : Nat) : (s.dropBlock k).boot = s.boot := rfl
@[simp] theorem State.dropBlock_tick (s : State) (k : Nat) : (s.dropBlock k).tick = s.tick := rfl
@[simp] theorem State.dropBlock_wins (s : State) (k : Nat) : (s.dropBlock k).wins = s.wins := rfl
@[simp] theorem State.dropBlock_gens (s : State) (k : Nat) : (s.dropBlock k).gens = s.gens := rfl
@[simp] theorem State.dropBlock_ops (s : State) (k : Nat) : (s.dropBlock k).ops = s.ops := rfl
@[simp] theorem State.dropBlock_pwr (s : State) (k : Nat) : (s.dropBlock k).pwr = s.pwr := rfl
@[simp] theorem State.dropBlock_mem (s : State) (k : Nat) : (s.dropBlock k).mem = s.mem := rfl
@[simp] theorem State.dropBlock_qs (s : State) (k : Nat) : (s.dropBlock k).qs = s.qs := rfl
@[simp] theorem State.dropBlock_ingest (s : State) (k : Nat) : (s.dropBlock k).ingest = s.ingest := rfl
@[simp] theorem State.dropBlock_wheel (s : State) (k : Nat) : (s.dropBlock k).wheel = s.wheel := rfl
@[simp] theorem State.dropBlock_sched (s : State) (k : Nat) : (s.dropBlock k).sched = s.sched := rfl
@[simp] theorem State.dropBlock_serving (s : State) (k : Nat) : (s.dropBlock k).serving = s.serving := rfl
@[simp] theorem State.dropBlock_raster (s : State) (k : Nat) : (s.dropBlock k).raster = s.raster := rfl
@[simp] theorem State.dropBlock_vision (s : State) (k : Nat) : (s.dropBlock k).vision = s.vision := rfl
@[simp] theorem State.dropBlock_solver (s : State) (k : Nat) : (s.dropBlock k).solver = s.solver := rfl
@[simp] theorem State.dropBlock_pipes (s : State) (k : Nat) : (s.dropBlock k).pipes = s.pipes := rfl
@[simp] theorem State.dropBlock_leat (s : State) (k : Nat) : (s.dropBlock k).leat = s.leat := rfl
@[simp] theorem State.dropBlock_watch (s : State) (k : Nat) : (s.dropBlock k).watch = s.watch := rfl
@[simp] theorem State.dropBlock_tap (s : State) (k : Nat) : (s.dropBlock k).tap = s.tap := rfl

/-! ## beginVerify -/

@[simp] theorem State.beginVerify_pending (s : State) (b : List Byte) (src : ImageSource) (slot : Option Nat) : (s.beginVerify b src slot).pending = s.pending := rfl
@[simp] theorem State.beginVerify_now (s : State) (b : List Byte) (src : ImageSource) (slot : Option Nat) : (s.beginVerify b src slot).now = s.now := rfl
@[simp] theorem State.beginVerify_tB (s : State) (b : List Byte) (src : ImageSource) (slot : Option Nat) : (s.beginVerify b src slot).tB = s.tB := rfl
@[simp] theorem State.beginVerify_od (s : State) (b : List Byte) (src : ImageSource) (slot : Option Nat) : (s.beginVerify b src slot).od = s.od := rfl
@[simp] theorem State.beginVerify_dom (s : State) (b : List Byte) (src : ImageSource) (slot : Option Nat) : (s.beginVerify b src slot).dom = s.dom := rfl
@[simp] theorem State.beginVerify_written (s : State) (b : List Byte) (src : ImageSource) (slot : Option Nat) : (s.beginVerify b src slot).written = s.written := rfl
@[simp] theorem State.beginVerify_events (s : State) (b : List Byte) (src : ImageSource) (slot : Option Nat) : (s.beginVerify b src slot).events = s.events := rfl
@[simp] theorem State.beginVerify_gather (s : State) (b : List Byte) (src : ImageSource) (slot : Option Nat) : (s.beginVerify b src slot).gather = s.gather := rfl
@[simp] theorem State.beginVerify_out (s : State) (b : List Byte) (src : ImageSource) (slot : Option Nat) : (s.beginVerify b src slot).out = s.out := rfl
@[simp] theorem State.beginVerify_fresh (s : State) (b : List Byte) (src : ImageSource) (slot : Option Nat) : (s.beginVerify b src slot).fresh = s.fresh := rfl
@[simp] theorem State.beginVerify_tick (s : State) (b : List Byte) (src : ImageSource) (slot : Option Nat) : (s.beginVerify b src slot).tick = s.tick := rfl
@[simp] theorem State.beginVerify_bap (s : State) (b : List Byte) (src : ImageSource) (slot : Option Nat) : (s.beginVerify b src slot).bap = s.bap := rfl
@[simp] theorem State.beginVerify_wins (s : State) (b : List Byte) (src : ImageSource) (slot : Option Nat) : (s.beginVerify b src slot).wins = s.wins := rfl
@[simp] theorem State.beginVerify_gens (s : State) (b : List Byte) (src : ImageSource) (slot : Option Nat) : (s.beginVerify b src slot).gens = s.gens := rfl
@[simp] theorem State.beginVerify_ops (s : State) (b : List Byte) (src : ImageSource) (slot : Option Nat) : (s.beginVerify b src slot).ops = s.ops := rfl
@[simp] theorem State.beginVerify_pwr (s : State) (b : List Byte) (src : ImageSource) (slot : Option Nat) : (s.beginVerify b src slot).pwr = s.pwr := rfl
@[simp] theorem State.beginVerify_mem (s : State) (b : List Byte) (src : ImageSource) (slot : Option Nat) : (s.beginVerify b src slot).mem = s.mem := rfl
@[simp] theorem State.beginVerify_qs (s : State) (b : List Byte) (src : ImageSource) (slot : Option Nat) : (s.beginVerify b src slot).qs = s.qs := rfl
@[simp] theorem State.beginVerify_ingest (s : State) (b : List Byte) (src : ImageSource) (slot : Option Nat) : (s.beginVerify b src slot).ingest = s.ingest := rfl
@[simp] theorem State.beginVerify_wheel (s : State) (b : List Byte) (src : ImageSource) (slot : Option Nat) : (s.beginVerify b src slot).wheel = s.wheel := rfl
@[simp] theorem State.beginVerify_sched (s : State) (b : List Byte) (src : ImageSource) (slot : Option Nat) : (s.beginVerify b src slot).sched = s.sched := rfl
@[simp] theorem State.beginVerify_serving (s : State) (b : List Byte) (src : ImageSource) (slot : Option Nat) : (s.beginVerify b src slot).serving = s.serving := rfl
@[simp] theorem State.beginVerify_raster (s : State) (b : List Byte) (src : ImageSource) (slot : Option Nat) : (s.beginVerify b src slot).raster = s.raster := rfl
@[simp] theorem State.beginVerify_vision (s : State) (b : List Byte) (src : ImageSource) (slot : Option Nat) : (s.beginVerify b src slot).vision = s.vision := rfl
@[simp] theorem State.beginVerify_solver (s : State) (b : List Byte) (src : ImageSource) (slot : Option Nat) : (s.beginVerify b src slot).solver = s.solver := rfl
@[simp] theorem State.beginVerify_pipes (s : State) (b : List Byte) (src : ImageSource) (slot : Option Nat) : (s.beginVerify b src slot).pipes = s.pipes := rfl
@[simp] theorem State.beginVerify_leat (s : State) (b : List Byte) (src : ImageSource) (slot : Option Nat) : (s.beginVerify b src slot).leat = s.leat := rfl
@[simp] theorem State.beginVerify_watch (s : State) (b : List Byte) (src : ImageSource) (slot : Option Nat) : (s.beginVerify b src slot).watch = s.watch := rfl
@[simp] theorem State.beginVerify_tap (s : State) (b : List Byte) (src : ImageSource) (slot : Option Nat) : (s.beginVerify b src slot).tap = s.tap := rfl

/-! ## inc -/

@[simp] theorem State.inc_pending (s : State) (k : Nat) : (s.inc k).pending = s.pending := rfl
@[simp] theorem State.inc_now (s : State) (k : Nat) : (s.inc k).now = s.now := rfl
@[simp] theorem State.inc_tB (s : State) (k : Nat) : (s.inc k).tB = s.tB := rfl
@[simp] theorem State.inc_dom (s : State) (k : Nat) : (s.inc k).dom = s.dom := rfl
@[simp] theorem State.inc_written (s : State) (k : Nat) : (s.inc k).written = s.written := rfl
@[simp] theorem State.inc_events (s : State) (k : Nat) : (s.inc k).events = s.events := rfl
@[simp] theorem State.inc_gather (s : State) (k : Nat) : (s.inc k).gather = s.gather := rfl
@[simp] theorem State.inc_out (s : State) (k : Nat) : (s.inc k).out = s.out := rfl
@[simp] theorem State.inc_fresh (s : State) (k : Nat) : (s.inc k).fresh = s.fresh := rfl
@[simp] theorem State.inc_boot (s : State) (k : Nat) : (s.inc k).boot = s.boot := rfl
@[simp] theorem State.inc_tick (s : State) (k : Nat) : (s.inc k).tick = s.tick := rfl
@[simp] theorem State.inc_bap (s : State) (k : Nat) : (s.inc k).bap = s.bap := rfl
@[simp] theorem State.inc_wins (s : State) (k : Nat) : (s.inc k).wins = s.wins := rfl
@[simp] theorem State.inc_gens (s : State) (k : Nat) : (s.inc k).gens = s.gens := rfl
@[simp] theorem State.inc_ops (s : State) (k : Nat) : (s.inc k).ops = s.ops := rfl
@[simp] theorem State.inc_pwr (s : State) (k : Nat) : (s.inc k).pwr = s.pwr := rfl
@[simp] theorem State.inc_mem (s : State) (k : Nat) : (s.inc k).mem = s.mem := rfl
@[simp] theorem State.inc_qs (s : State) (k : Nat) : (s.inc k).qs = s.qs := rfl
@[simp] theorem State.inc_ingest (s : State) (k : Nat) : (s.inc k).ingest = s.ingest := rfl
@[simp] theorem State.inc_wheel (s : State) (k : Nat) : (s.inc k).wheel = s.wheel := rfl
@[simp] theorem State.inc_sched (s : State) (k : Nat) : (s.inc k).sched = s.sched := rfl
@[simp] theorem State.inc_serving (s : State) (k : Nat) : (s.inc k).serving = s.serving := rfl
@[simp] theorem State.inc_raster (s : State) (k : Nat) : (s.inc k).raster = s.raster := rfl
@[simp] theorem State.inc_vision (s : State) (k : Nat) : (s.inc k).vision = s.vision := rfl
@[simp] theorem State.inc_solver (s : State) (k : Nat) : (s.inc k).solver = s.solver := rfl
@[simp] theorem State.inc_pipes (s : State) (k : Nat) : (s.inc k).pipes = s.pipes := rfl
@[simp] theorem State.inc_leat (s : State) (k : Nat) : (s.inc k).leat = s.leat := rfl
@[simp] theorem State.inc_watch (s : State) (k : Nat) : (s.inc k).watch = s.watch := rfl
@[simp] theorem State.inc_tap (s : State) (k : Nat) : (s.inc k).tap = s.tap := rfl

/-! ## incBy -/

@[simp] theorem State.incBy_pending (s : State) (k n : Nat) : (s.incBy k n).pending = s.pending := rfl
@[simp] theorem State.incBy_now (s : State) (k n : Nat) : (s.incBy k n).now = s.now := rfl
@[simp] theorem State.incBy_tB (s : State) (k n : Nat) : (s.incBy k n).tB = s.tB := rfl
@[simp] theorem State.incBy_dom (s : State) (k n : Nat) : (s.incBy k n).dom = s.dom := rfl
@[simp] theorem State.incBy_written (s : State) (k n : Nat) : (s.incBy k n).written = s.written := rfl
@[simp] theorem State.incBy_events (s : State) (k n : Nat) : (s.incBy k n).events = s.events := rfl
@[simp] theorem State.incBy_gather (s : State) (k n : Nat) : (s.incBy k n).gather = s.gather := rfl
@[simp] theorem State.incBy_out (s : State) (k n : Nat) : (s.incBy k n).out = s.out := rfl
@[simp] theorem State.incBy_fresh (s : State) (k n : Nat) : (s.incBy k n).fresh = s.fresh := rfl
@[simp] theorem State.incBy_boot (s : State) (k n : Nat) : (s.incBy k n).boot = s.boot := rfl
@[simp] theorem State.incBy_tick (s : State) (k n : Nat) : (s.incBy k n).tick = s.tick := rfl
@[simp] theorem State.incBy_bap (s : State) (k n : Nat) : (s.incBy k n).bap = s.bap := rfl
@[simp] theorem State.incBy_wins (s : State) (k n : Nat) : (s.incBy k n).wins = s.wins := rfl
@[simp] theorem State.incBy_gens (s : State) (k n : Nat) : (s.incBy k n).gens = s.gens := rfl
@[simp] theorem State.incBy_ops (s : State) (k n : Nat) : (s.incBy k n).ops = s.ops := rfl
@[simp] theorem State.incBy_pwr (s : State) (k n : Nat) : (s.incBy k n).pwr = s.pwr := rfl
@[simp] theorem State.incBy_mem (s : State) (k n : Nat) : (s.incBy k n).mem = s.mem := rfl
@[simp] theorem State.incBy_qs (s : State) (k n : Nat) : (s.incBy k n).qs = s.qs := rfl
@[simp] theorem State.incBy_ingest (s : State) (k n : Nat) : (s.incBy k n).ingest = s.ingest := rfl
@[simp] theorem State.incBy_wheel (s : State) (k n : Nat) : (s.incBy k n).wheel = s.wheel := rfl
@[simp] theorem State.incBy_sched (s : State) (k n : Nat) : (s.incBy k n).sched = s.sched := rfl
@[simp] theorem State.incBy_serving (s : State) (k n : Nat) : (s.incBy k n).serving = s.serving := rfl
@[simp] theorem State.incBy_raster (s : State) (k n : Nat) : (s.incBy k n).raster = s.raster := rfl
@[simp] theorem State.incBy_vision (s : State) (k n : Nat) : (s.incBy k n).vision = s.vision := rfl
@[simp] theorem State.incBy_solver (s : State) (k n : Nat) : (s.incBy k n).solver = s.solver := rfl
@[simp] theorem State.incBy_pipes (s : State) (k n : Nat) : (s.incBy k n).pipes = s.pipes := rfl
@[simp] theorem State.incBy_leat (s : State) (k n : Nat) : (s.incBy k n).leat = s.leat := rfl
@[simp] theorem State.incBy_watch (s : State) (k n : Nat) : (s.incBy k n).watch = s.watch := rfl
@[simp] theorem State.incBy_tap (s : State) (k n : Nat) : (s.incBy k n).tap = s.tap := rfl

/-! ## irq -/

@[simp] theorem State.irq_pending (s : State) (b : Nat) : (s.irq b).pending = s.pending := rfl
@[simp] theorem State.irq_now (s : State) (b : Nat) : (s.irq b).now = s.now := rfl
@[simp] theorem State.irq_tB (s : State) (b : Nat) : (s.irq b).tB = s.tB := rfl
@[simp] theorem State.irq_dom (s : State) (b : Nat) : (s.irq b).dom = s.dom := rfl
@[simp] theorem State.irq_written (s : State) (b : Nat) : (s.irq b).written = s.written := rfl
@[simp] theorem State.irq_events (s : State) (b : Nat) : (s.irq b).events = s.events := rfl
@[simp] theorem State.irq_gather (s : State) (b : Nat) : (s.irq b).gather = s.gather := rfl
@[simp] theorem State.irq_out (s : State) (b : Nat) : (s.irq b).out = s.out := rfl
@[simp] theorem State.irq_fresh (s : State) (b : Nat) : (s.irq b).fresh = s.fresh := rfl
@[simp] theorem State.irq_boot (s : State) (b : Nat) : (s.irq b).boot = s.boot := rfl
@[simp] theorem State.irq_tick (s : State) (b : Nat) : (s.irq b).tick = s.tick := rfl
@[simp] theorem State.irq_bap (s : State) (b : Nat) : (s.irq b).bap = s.bap := rfl
@[simp] theorem State.irq_wins (s : State) (b : Nat) : (s.irq b).wins = s.wins := rfl
@[simp] theorem State.irq_gens (s : State) (b : Nat) : (s.irq b).gens = s.gens := rfl
@[simp] theorem State.irq_ops (s : State) (b : Nat) : (s.irq b).ops = s.ops := rfl
@[simp] theorem State.irq_pwr (s : State) (b : Nat) : (s.irq b).pwr = s.pwr := rfl
@[simp] theorem State.irq_mem (s : State) (b : Nat) : (s.irq b).mem = s.mem := rfl
@[simp] theorem State.irq_qs (s : State) (b : Nat) : (s.irq b).qs = s.qs := rfl
@[simp] theorem State.irq_ingest (s : State) (b : Nat) : (s.irq b).ingest = s.ingest := rfl
@[simp] theorem State.irq_wheel (s : State) (b : Nat) : (s.irq b).wheel = s.wheel := rfl
@[simp] theorem State.irq_sched (s : State) (b : Nat) : (s.irq b).sched = s.sched := rfl
@[simp] theorem State.irq_serving (s : State) (b : Nat) : (s.irq b).serving = s.serving := rfl
@[simp] theorem State.irq_raster (s : State) (b : Nat) : (s.irq b).raster = s.raster := rfl
@[simp] theorem State.irq_vision (s : State) (b : Nat) : (s.irq b).vision = s.vision := rfl
@[simp] theorem State.irq_solver (s : State) (b : Nat) : (s.irq b).solver = s.solver := rfl
@[simp] theorem State.irq_pipes (s : State) (b : Nat) : (s.irq b).pipes = s.pipes := rfl
@[simp] theorem State.irq_leat (s : State) (b : Nat) : (s.irq b).leat = s.leat := rfl
@[simp] theorem State.irq_watch (s : State) (b : Nat) : (s.irq b).watch = s.watch := rfl
@[simp] theorem State.irq_tap (s : State) (b : Nat) : (s.irq b).tap = s.tap := rfl

/-! ## hold -/

@[simp] theorem State.hold_pending (s : State) (u : SchedUnit) (id : JobId) : (s.hold u id).pending = s.pending := rfl
@[simp] theorem State.hold_now (s : State) (u : SchedUnit) (id : JobId) : (s.hold u id).now = s.now := rfl
@[simp] theorem State.hold_tB (s : State) (u : SchedUnit) (id : JobId) : (s.hold u id).tB = s.tB := rfl
@[simp] theorem State.hold_od (s : State) (u : SchedUnit) (id : JobId) : (s.hold u id).od = s.od := rfl
@[simp] theorem State.hold_dom (s : State) (u : SchedUnit) (id : JobId) : (s.hold u id).dom = s.dom := rfl
@[simp] theorem State.hold_written (s : State) (u : SchedUnit) (id : JobId) : (s.hold u id).written = s.written := rfl
@[simp] theorem State.hold_events (s : State) (u : SchedUnit) (id : JobId) : (s.hold u id).events = s.events := rfl
@[simp] theorem State.hold_gather (s : State) (u : SchedUnit) (id : JobId) : (s.hold u id).gather = s.gather := rfl
@[simp] theorem State.hold_out (s : State) (u : SchedUnit) (id : JobId) : (s.hold u id).out = s.out := rfl
@[simp] theorem State.hold_fresh (s : State) (u : SchedUnit) (id : JobId) : (s.hold u id).fresh = s.fresh := rfl
@[simp] theorem State.hold_boot (s : State) (u : SchedUnit) (id : JobId) : (s.hold u id).boot = s.boot := rfl
@[simp] theorem State.hold_tick (s : State) (u : SchedUnit) (id : JobId) : (s.hold u id).tick = s.tick := rfl
@[simp] theorem State.hold_bap (s : State) (u : SchedUnit) (id : JobId) : (s.hold u id).bap = s.bap := rfl
@[simp] theorem State.hold_wins (s : State) (u : SchedUnit) (id : JobId) : (s.hold u id).wins = s.wins := rfl
@[simp] theorem State.hold_gens (s : State) (u : SchedUnit) (id : JobId) : (s.hold u id).gens = s.gens := rfl
@[simp] theorem State.hold_ops (s : State) (u : SchedUnit) (id : JobId) : (s.hold u id).ops = s.ops := rfl
@[simp] theorem State.hold_pwr (s : State) (u : SchedUnit) (id : JobId) : (s.hold u id).pwr = s.pwr := rfl
@[simp] theorem State.hold_mem (s : State) (u : SchedUnit) (id : JobId) : (s.hold u id).mem = s.mem := rfl
@[simp] theorem State.hold_qs (s : State) (u : SchedUnit) (id : JobId) : (s.hold u id).qs = s.qs := rfl
@[simp] theorem State.hold_ingest (s : State) (u : SchedUnit) (id : JobId) : (s.hold u id).ingest = s.ingest := rfl
@[simp] theorem State.hold_wheel (s : State) (u : SchedUnit) (id : JobId) : (s.hold u id).wheel = s.wheel := rfl
@[simp] theorem State.hold_serving (s : State) (u : SchedUnit) (id : JobId) : (s.hold u id).serving = s.serving := rfl
@[simp] theorem State.hold_raster (s : State) (u : SchedUnit) (id : JobId) : (s.hold u id).raster = s.raster := rfl
@[simp] theorem State.hold_vision (s : State) (u : SchedUnit) (id : JobId) : (s.hold u id).vision = s.vision := rfl
@[simp] theorem State.hold_solver (s : State) (u : SchedUnit) (id : JobId) : (s.hold u id).solver = s.solver := rfl
@[simp] theorem State.hold_pipes (s : State) (u : SchedUnit) (id : JobId) : (s.hold u id).pipes = s.pipes := rfl
@[simp] theorem State.hold_leat (s : State) (u : SchedUnit) (id : JobId) : (s.hold u id).leat = s.leat := rfl
@[simp] theorem State.hold_watch (s : State) (u : SchedUnit) (id : JobId) : (s.hold u id).watch = s.watch := rfl
@[simp] theorem State.hold_tap (s : State) (u : SchedUnit) (id : JobId) : (s.hold u id).tap = s.tap := rfl

/-! ## atPoint -/

@[simp] theorem State.atPoint_pending (s : State) (u : SchedUnit) : (s.atPoint u).pending = s.pending := rfl
@[simp] theorem State.atPoint_now (s : State) (u : SchedUnit) : (s.atPoint u).now = s.now := rfl
@[simp] theorem State.atPoint_tB (s : State) (u : SchedUnit) : (s.atPoint u).tB = s.tB := rfl
@[simp] theorem State.atPoint_od (s : State) (u : SchedUnit) : (s.atPoint u).od = s.od := rfl
@[simp] theorem State.atPoint_dom (s : State) (u : SchedUnit) : (s.atPoint u).dom = s.dom := rfl
@[simp] theorem State.atPoint_written (s : State) (u : SchedUnit) : (s.atPoint u).written = s.written := rfl
@[simp] theorem State.atPoint_events (s : State) (u : SchedUnit) : (s.atPoint u).events = s.events := rfl
@[simp] theorem State.atPoint_gather (s : State) (u : SchedUnit) : (s.atPoint u).gather = s.gather := rfl
@[simp] theorem State.atPoint_out (s : State) (u : SchedUnit) : (s.atPoint u).out = s.out := rfl
@[simp] theorem State.atPoint_fresh (s : State) (u : SchedUnit) : (s.atPoint u).fresh = s.fresh := rfl
@[simp] theorem State.atPoint_boot (s : State) (u : SchedUnit) : (s.atPoint u).boot = s.boot := rfl
@[simp] theorem State.atPoint_tick (s : State) (u : SchedUnit) : (s.atPoint u).tick = s.tick := rfl
@[simp] theorem State.atPoint_bap (s : State) (u : SchedUnit) : (s.atPoint u).bap = s.bap := rfl
@[simp] theorem State.atPoint_wins (s : State) (u : SchedUnit) : (s.atPoint u).wins = s.wins := rfl
@[simp] theorem State.atPoint_gens (s : State) (u : SchedUnit) : (s.atPoint u).gens = s.gens := rfl
@[simp] theorem State.atPoint_ops (s : State) (u : SchedUnit) : (s.atPoint u).ops = s.ops := rfl
@[simp] theorem State.atPoint_pwr (s : State) (u : SchedUnit) : (s.atPoint u).pwr = s.pwr := rfl
@[simp] theorem State.atPoint_mem (s : State) (u : SchedUnit) : (s.atPoint u).mem = s.mem := rfl
@[simp] theorem State.atPoint_qs (s : State) (u : SchedUnit) : (s.atPoint u).qs = s.qs := rfl
@[simp] theorem State.atPoint_ingest (s : State) (u : SchedUnit) : (s.atPoint u).ingest = s.ingest := rfl
@[simp] theorem State.atPoint_wheel (s : State) (u : SchedUnit) : (s.atPoint u).wheel = s.wheel := rfl
@[simp] theorem State.atPoint_serving (s : State) (u : SchedUnit) : (s.atPoint u).serving = s.serving := rfl
@[simp] theorem State.atPoint_raster (s : State) (u : SchedUnit) : (s.atPoint u).raster = s.raster := rfl
@[simp] theorem State.atPoint_vision (s : State) (u : SchedUnit) : (s.atPoint u).vision = s.vision := rfl
@[simp] theorem State.atPoint_solver (s : State) (u : SchedUnit) : (s.atPoint u).solver = s.solver := rfl
@[simp] theorem State.atPoint_pipes (s : State) (u : SchedUnit) : (s.atPoint u).pipes = s.pipes := rfl
@[simp] theorem State.atPoint_leat (s : State) (u : SchedUnit) : (s.atPoint u).leat = s.leat := rfl
@[simp] theorem State.atPoint_watch (s : State) (u : SchedUnit) : (s.atPoint u).watch = s.watch := rfl
@[simp] theorem State.atPoint_tap (s : State) (u : SchedUnit) : (s.atPoint u).tap = s.tap := rfl

/-! ## putServe -/

@[simp] theorem State.putServe_pending (s : State) (k : Nat) (x : Serving) : (s.putServe k x).pending = s.pending := rfl
@[simp] theorem State.putServe_now (s : State) (k : Nat) (x : Serving) : (s.putServe k x).now = s.now := rfl
@[simp] theorem State.putServe_tB (s : State) (k : Nat) (x : Serving) : (s.putServe k x).tB = s.tB := rfl
@[simp] theorem State.putServe_od (s : State) (k : Nat) (x : Serving) : (s.putServe k x).od = s.od := rfl
@[simp] theorem State.putServe_dom (s : State) (k : Nat) (x : Serving) : (s.putServe k x).dom = s.dom := rfl
@[simp] theorem State.putServe_written (s : State) (k : Nat) (x : Serving) : (s.putServe k x).written = s.written := rfl
@[simp] theorem State.putServe_events (s : State) (k : Nat) (x : Serving) : (s.putServe k x).events = s.events := rfl
@[simp] theorem State.putServe_gather (s : State) (k : Nat) (x : Serving) : (s.putServe k x).gather = s.gather := rfl
@[simp] theorem State.putServe_out (s : State) (k : Nat) (x : Serving) : (s.putServe k x).out = s.out := rfl
@[simp] theorem State.putServe_fresh (s : State) (k : Nat) (x : Serving) : (s.putServe k x).fresh = s.fresh := rfl
@[simp] theorem State.putServe_boot (s : State) (k : Nat) (x : Serving) : (s.putServe k x).boot = s.boot := rfl
@[simp] theorem State.putServe_tick (s : State) (k : Nat) (x : Serving) : (s.putServe k x).tick = s.tick := rfl
@[simp] theorem State.putServe_bap (s : State) (k : Nat) (x : Serving) : (s.putServe k x).bap = s.bap := rfl
@[simp] theorem State.putServe_wins (s : State) (k : Nat) (x : Serving) : (s.putServe k x).wins = s.wins := rfl
@[simp] theorem State.putServe_gens (s : State) (k : Nat) (x : Serving) : (s.putServe k x).gens = s.gens := rfl
@[simp] theorem State.putServe_ops (s : State) (k : Nat) (x : Serving) : (s.putServe k x).ops = s.ops := rfl
@[simp] theorem State.putServe_pwr (s : State) (k : Nat) (x : Serving) : (s.putServe k x).pwr = s.pwr := rfl
@[simp] theorem State.putServe_mem (s : State) (k : Nat) (x : Serving) : (s.putServe k x).mem = s.mem := rfl
@[simp] theorem State.putServe_qs (s : State) (k : Nat) (x : Serving) : (s.putServe k x).qs = s.qs := rfl
@[simp] theorem State.putServe_ingest (s : State) (k : Nat) (x : Serving) : (s.putServe k x).ingest = s.ingest := rfl
@[simp] theorem State.putServe_wheel (s : State) (k : Nat) (x : Serving) : (s.putServe k x).wheel = s.wheel := rfl
@[simp] theorem State.putServe_sched (s : State) (k : Nat) (x : Serving) : (s.putServe k x).sched = s.sched := rfl
@[simp] theorem State.putServe_raster (s : State) (k : Nat) (x : Serving) : (s.putServe k x).raster = s.raster := rfl
@[simp] theorem State.putServe_vision (s : State) (k : Nat) (x : Serving) : (s.putServe k x).vision = s.vision := rfl
@[simp] theorem State.putServe_solver (s : State) (k : Nat) (x : Serving) : (s.putServe k x).solver = s.solver := rfl
@[simp] theorem State.putServe_pipes (s : State) (k : Nat) (x : Serving) : (s.putServe k x).pipes = s.pipes := rfl
@[simp] theorem State.putServe_leat (s : State) (k : Nat) (x : Serving) : (s.putServe k x).leat = s.leat := rfl
@[simp] theorem State.putServe_watch (s : State) (k : Nat) (x : Serving) : (s.putServe k x).watch = s.watch := rfl
@[simp] theorem State.putServe_tap (s : State) (k : Nat) (x : Serving) : (s.putServe k x).tap = s.tap := rfl

/-! ## putWork -/

@[simp] theorem State.putWork_pending (s : State) (id : JobId) (w : RasterWork) : (s.putWork id w).pending = s.pending := rfl
@[simp] theorem State.putWork_now (s : State) (id : JobId) (w : RasterWork) : (s.putWork id w).now = s.now := rfl
@[simp] theorem State.putWork_tB (s : State) (id : JobId) (w : RasterWork) : (s.putWork id w).tB = s.tB := rfl
@[simp] theorem State.putWork_od (s : State) (id : JobId) (w : RasterWork) : (s.putWork id w).od = s.od := rfl
@[simp] theorem State.putWork_dom (s : State) (id : JobId) (w : RasterWork) : (s.putWork id w).dom = s.dom := rfl
@[simp] theorem State.putWork_written (s : State) (id : JobId) (w : RasterWork) : (s.putWork id w).written = s.written := rfl
@[simp] theorem State.putWork_events (s : State) (id : JobId) (w : RasterWork) : (s.putWork id w).events = s.events := rfl
@[simp] theorem State.putWork_gather (s : State) (id : JobId) (w : RasterWork) : (s.putWork id w).gather = s.gather := rfl
@[simp] theorem State.putWork_out (s : State) (id : JobId) (w : RasterWork) : (s.putWork id w).out = s.out := rfl
@[simp] theorem State.putWork_fresh (s : State) (id : JobId) (w : RasterWork) : (s.putWork id w).fresh = s.fresh := rfl
@[simp] theorem State.putWork_boot (s : State) (id : JobId) (w : RasterWork) : (s.putWork id w).boot = s.boot := rfl
@[simp] theorem State.putWork_tick (s : State) (id : JobId) (w : RasterWork) : (s.putWork id w).tick = s.tick := rfl
@[simp] theorem State.putWork_bap (s : State) (id : JobId) (w : RasterWork) : (s.putWork id w).bap = s.bap := rfl
@[simp] theorem State.putWork_wins (s : State) (id : JobId) (w : RasterWork) : (s.putWork id w).wins = s.wins := rfl
@[simp] theorem State.putWork_gens (s : State) (id : JobId) (w : RasterWork) : (s.putWork id w).gens = s.gens := rfl
@[simp] theorem State.putWork_ops (s : State) (id : JobId) (w : RasterWork) : (s.putWork id w).ops = s.ops := rfl
@[simp] theorem State.putWork_pwr (s : State) (id : JobId) (w : RasterWork) : (s.putWork id w).pwr = s.pwr := rfl
@[simp] theorem State.putWork_mem (s : State) (id : JobId) (w : RasterWork) : (s.putWork id w).mem = s.mem := rfl
@[simp] theorem State.putWork_qs (s : State) (id : JobId) (w : RasterWork) : (s.putWork id w).qs = s.qs := rfl
@[simp] theorem State.putWork_ingest (s : State) (id : JobId) (w : RasterWork) : (s.putWork id w).ingest = s.ingest := rfl
@[simp] theorem State.putWork_wheel (s : State) (id : JobId) (w : RasterWork) : (s.putWork id w).wheel = s.wheel := rfl
@[simp] theorem State.putWork_sched (s : State) (id : JobId) (w : RasterWork) : (s.putWork id w).sched = s.sched := rfl
@[simp] theorem State.putWork_serving (s : State) (id : JobId) (w : RasterWork) : (s.putWork id w).serving = s.serving := rfl
@[simp] theorem State.putWork_vision (s : State) (id : JobId) (w : RasterWork) : (s.putWork id w).vision = s.vision := rfl
@[simp] theorem State.putWork_solver (s : State) (id : JobId) (w : RasterWork) : (s.putWork id w).solver = s.solver := rfl
@[simp] theorem State.putWork_pipes (s : State) (id : JobId) (w : RasterWork) : (s.putWork id w).pipes = s.pipes := rfl
@[simp] theorem State.putWork_leat (s : State) (id : JobId) (w : RasterWork) : (s.putWork id w).leat = s.leat := rfl
@[simp] theorem State.putWork_watch (s : State) (id : JobId) (w : RasterWork) : (s.putWork id w).watch = s.watch := rfl
@[simp] theorem State.putWork_tap (s : State) (id : JobId) (w : RasterWork) : (s.putWork id w).tap = s.tap := rfl

/-! ## dropWork -/

@[simp] theorem State.dropWork_pending (s : State) (id : JobId) : (s.dropWork id).pending = s.pending := rfl
@[simp] theorem State.dropWork_now (s : State) (id : JobId) : (s.dropWork id).now = s.now := rfl
@[simp] theorem State.dropWork_tB (s : State) (id : JobId) : (s.dropWork id).tB = s.tB := rfl
@[simp] theorem State.dropWork_od (s : State) (id : JobId) : (s.dropWork id).od = s.od := rfl
@[simp] theorem State.dropWork_dom (s : State) (id : JobId) : (s.dropWork id).dom = s.dom := rfl
@[simp] theorem State.dropWork_written (s : State) (id : JobId) : (s.dropWork id).written = s.written := rfl
@[simp] theorem State.dropWork_events (s : State) (id : JobId) : (s.dropWork id).events = s.events := rfl
@[simp] theorem State.dropWork_gather (s : State) (id : JobId) : (s.dropWork id).gather = s.gather := rfl
@[simp] theorem State.dropWork_out (s : State) (id : JobId) : (s.dropWork id).out = s.out := rfl
@[simp] theorem State.dropWork_fresh (s : State) (id : JobId) : (s.dropWork id).fresh = s.fresh := rfl
@[simp] theorem State.dropWork_boot (s : State) (id : JobId) : (s.dropWork id).boot = s.boot := rfl
@[simp] theorem State.dropWork_tick (s : State) (id : JobId) : (s.dropWork id).tick = s.tick := rfl
@[simp] theorem State.dropWork_bap (s : State) (id : JobId) : (s.dropWork id).bap = s.bap := rfl
@[simp] theorem State.dropWork_wins (s : State) (id : JobId) : (s.dropWork id).wins = s.wins := rfl
@[simp] theorem State.dropWork_gens (s : State) (id : JobId) : (s.dropWork id).gens = s.gens := rfl
@[simp] theorem State.dropWork_ops (s : State) (id : JobId) : (s.dropWork id).ops = s.ops := rfl
@[simp] theorem State.dropWork_pwr (s : State) (id : JobId) : (s.dropWork id).pwr = s.pwr := rfl
@[simp] theorem State.dropWork_mem (s : State) (id : JobId) : (s.dropWork id).mem = s.mem := rfl
@[simp] theorem State.dropWork_qs (s : State) (id : JobId) : (s.dropWork id).qs = s.qs := rfl
@[simp] theorem State.dropWork_ingest (s : State) (id : JobId) : (s.dropWork id).ingest = s.ingest := rfl
@[simp] theorem State.dropWork_wheel (s : State) (id : JobId) : (s.dropWork id).wheel = s.wheel := rfl
@[simp] theorem State.dropWork_sched (s : State) (id : JobId) : (s.dropWork id).sched = s.sched := rfl
@[simp] theorem State.dropWork_serving (s : State) (id : JobId) : (s.dropWork id).serving = s.serving := rfl
@[simp] theorem State.dropWork_vision (s : State) (id : JobId) : (s.dropWork id).vision = s.vision := rfl
@[simp] theorem State.dropWork_solver (s : State) (id : JobId) : (s.dropWork id).solver = s.solver := rfl
@[simp] theorem State.dropWork_pipes (s : State) (id : JobId) : (s.dropWork id).pipes = s.pipes := rfl
@[simp] theorem State.dropWork_leat (s : State) (id : JobId) : (s.dropWork id).leat = s.leat := rfl
@[simp] theorem State.dropWork_watch (s : State) (id : JobId) : (s.dropWork id).watch = s.watch := rfl
@[simp] theorem State.dropWork_tap (s : State) (id : JobId) : (s.dropWork id).tap = s.tap := rfl

/-! ## putSolve -/

@[simp] theorem State.putSolve_pending (s : State) (id : JobId) (w : BaRun) : (s.putSolve id w).pending = s.pending := rfl
@[simp] theorem State.putSolve_now (s : State) (id : JobId) (w : BaRun) : (s.putSolve id w).now = s.now := rfl
@[simp] theorem State.putSolve_tB (s : State) (id : JobId) (w : BaRun) : (s.putSolve id w).tB = s.tB := rfl
@[simp] theorem State.putSolve_od (s : State) (id : JobId) (w : BaRun) : (s.putSolve id w).od = s.od := rfl
@[simp] theorem State.putSolve_dom (s : State) (id : JobId) (w : BaRun) : (s.putSolve id w).dom = s.dom := rfl
@[simp] theorem State.putSolve_written (s : State) (id : JobId) (w : BaRun) : (s.putSolve id w).written = s.written := rfl
@[simp] theorem State.putSolve_events (s : State) (id : JobId) (w : BaRun) : (s.putSolve id w).events = s.events := rfl
@[simp] theorem State.putSolve_gather (s : State) (id : JobId) (w : BaRun) : (s.putSolve id w).gather = s.gather := rfl
@[simp] theorem State.putSolve_out (s : State) (id : JobId) (w : BaRun) : (s.putSolve id w).out = s.out := rfl
@[simp] theorem State.putSolve_fresh (s : State) (id : JobId) (w : BaRun) : (s.putSolve id w).fresh = s.fresh := rfl
@[simp] theorem State.putSolve_boot (s : State) (id : JobId) (w : BaRun) : (s.putSolve id w).boot = s.boot := rfl
@[simp] theorem State.putSolve_tick (s : State) (id : JobId) (w : BaRun) : (s.putSolve id w).tick = s.tick := rfl
@[simp] theorem State.putSolve_bap (s : State) (id : JobId) (w : BaRun) : (s.putSolve id w).bap = s.bap := rfl
@[simp] theorem State.putSolve_wins (s : State) (id : JobId) (w : BaRun) : (s.putSolve id w).wins = s.wins := rfl
@[simp] theorem State.putSolve_gens (s : State) (id : JobId) (w : BaRun) : (s.putSolve id w).gens = s.gens := rfl
@[simp] theorem State.putSolve_ops (s : State) (id : JobId) (w : BaRun) : (s.putSolve id w).ops = s.ops := rfl
@[simp] theorem State.putSolve_pwr (s : State) (id : JobId) (w : BaRun) : (s.putSolve id w).pwr = s.pwr := rfl
@[simp] theorem State.putSolve_mem (s : State) (id : JobId) (w : BaRun) : (s.putSolve id w).mem = s.mem := rfl
@[simp] theorem State.putSolve_qs (s : State) (id : JobId) (w : BaRun) : (s.putSolve id w).qs = s.qs := rfl
@[simp] theorem State.putSolve_ingest (s : State) (id : JobId) (w : BaRun) : (s.putSolve id w).ingest = s.ingest := rfl
@[simp] theorem State.putSolve_wheel (s : State) (id : JobId) (w : BaRun) : (s.putSolve id w).wheel = s.wheel := rfl
@[simp] theorem State.putSolve_sched (s : State) (id : JobId) (w : BaRun) : (s.putSolve id w).sched = s.sched := rfl
@[simp] theorem State.putSolve_serving (s : State) (id : JobId) (w : BaRun) : (s.putSolve id w).serving = s.serving := rfl
@[simp] theorem State.putSolve_raster (s : State) (id : JobId) (w : BaRun) : (s.putSolve id w).raster = s.raster := rfl
@[simp] theorem State.putSolve_vision (s : State) (id : JobId) (w : BaRun) : (s.putSolve id w).vision = s.vision := rfl
@[simp] theorem State.putSolve_pipes (s : State) (id : JobId) (w : BaRun) : (s.putSolve id w).pipes = s.pipes := rfl
@[simp] theorem State.putSolve_leat (s : State) (id : JobId) (w : BaRun) : (s.putSolve id w).leat = s.leat := rfl
@[simp] theorem State.putSolve_watch (s : State) (id : JobId) (w : BaRun) : (s.putSolve id w).watch = s.watch := rfl
@[simp] theorem State.putSolve_tap (s : State) (id : JobId) (w : BaRun) : (s.putSolve id w).tap = s.tap := rfl

/-! ## putXfer -/

@[simp] theorem State.putXfer_pending (s : State) (x : LeatXfer) : (s.putXfer x).pending = s.pending := rfl
@[simp] theorem State.putXfer_now (s : State) (x : LeatXfer) : (s.putXfer x).now = s.now := rfl
@[simp] theorem State.putXfer_tB (s : State) (x : LeatXfer) : (s.putXfer x).tB = s.tB := rfl
@[simp] theorem State.putXfer_od (s : State) (x : LeatXfer) : (s.putXfer x).od = s.od := rfl
@[simp] theorem State.putXfer_dom (s : State) (x : LeatXfer) : (s.putXfer x).dom = s.dom := rfl
@[simp] theorem State.putXfer_written (s : State) (x : LeatXfer) : (s.putXfer x).written = s.written := rfl
@[simp] theorem State.putXfer_events (s : State) (x : LeatXfer) : (s.putXfer x).events = s.events := rfl
@[simp] theorem State.putXfer_gather (s : State) (x : LeatXfer) : (s.putXfer x).gather = s.gather := rfl
@[simp] theorem State.putXfer_out (s : State) (x : LeatXfer) : (s.putXfer x).out = s.out := rfl
@[simp] theorem State.putXfer_fresh (s : State) (x : LeatXfer) : (s.putXfer x).fresh = s.fresh := rfl
@[simp] theorem State.putXfer_boot (s : State) (x : LeatXfer) : (s.putXfer x).boot = s.boot := rfl
@[simp] theorem State.putXfer_tick (s : State) (x : LeatXfer) : (s.putXfer x).tick = s.tick := rfl
@[simp] theorem State.putXfer_bap (s : State) (x : LeatXfer) : (s.putXfer x).bap = s.bap := rfl
@[simp] theorem State.putXfer_wins (s : State) (x : LeatXfer) : (s.putXfer x).wins = s.wins := rfl
@[simp] theorem State.putXfer_gens (s : State) (x : LeatXfer) : (s.putXfer x).gens = s.gens := rfl
@[simp] theorem State.putXfer_ops (s : State) (x : LeatXfer) : (s.putXfer x).ops = s.ops := rfl
@[simp] theorem State.putXfer_pwr (s : State) (x : LeatXfer) : (s.putXfer x).pwr = s.pwr := rfl
@[simp] theorem State.putXfer_mem (s : State) (x : LeatXfer) : (s.putXfer x).mem = s.mem := rfl
@[simp] theorem State.putXfer_qs (s : State) (x : LeatXfer) : (s.putXfer x).qs = s.qs := rfl
@[simp] theorem State.putXfer_ingest (s : State) (x : LeatXfer) : (s.putXfer x).ingest = s.ingest := rfl
@[simp] theorem State.putXfer_wheel (s : State) (x : LeatXfer) : (s.putXfer x).wheel = s.wheel := rfl
@[simp] theorem State.putXfer_sched (s : State) (x : LeatXfer) : (s.putXfer x).sched = s.sched := rfl
@[simp] theorem State.putXfer_serving (s : State) (x : LeatXfer) : (s.putXfer x).serving = s.serving := rfl
@[simp] theorem State.putXfer_raster (s : State) (x : LeatXfer) : (s.putXfer x).raster = s.raster := rfl
@[simp] theorem State.putXfer_vision (s : State) (x : LeatXfer) : (s.putXfer x).vision = s.vision := rfl
@[simp] theorem State.putXfer_solver (s : State) (x : LeatXfer) : (s.putXfer x).solver = s.solver := rfl
@[simp] theorem State.putXfer_pipes (s : State) (x : LeatXfer) : (s.putXfer x).pipes = s.pipes := rfl
@[simp] theorem State.putXfer_watch (s : State) (x : LeatXfer) : (s.putXfer x).watch = s.watch := rfl
@[simp] theorem State.putXfer_tap (s : State) (x : LeatXfer) : (s.putXfer x).tap = s.tap := rfl

/-! ## dropXfer -/

@[simp] theorem State.dropXfer_pending (s : State) (id : Nat) : (s.dropXfer id).pending = s.pending := rfl
@[simp] theorem State.dropXfer_now (s : State) (id : Nat) : (s.dropXfer id).now = s.now := rfl
@[simp] theorem State.dropXfer_tB (s : State) (id : Nat) : (s.dropXfer id).tB = s.tB := rfl
@[simp] theorem State.dropXfer_od (s : State) (id : Nat) : (s.dropXfer id).od = s.od := rfl
@[simp] theorem State.dropXfer_dom (s : State) (id : Nat) : (s.dropXfer id).dom = s.dom := rfl
@[simp] theorem State.dropXfer_written (s : State) (id : Nat) : (s.dropXfer id).written = s.written := rfl
@[simp] theorem State.dropXfer_events (s : State) (id : Nat) : (s.dropXfer id).events = s.events := rfl
@[simp] theorem State.dropXfer_gather (s : State) (id : Nat) : (s.dropXfer id).gather = s.gather := rfl
@[simp] theorem State.dropXfer_out (s : State) (id : Nat) : (s.dropXfer id).out = s.out := rfl
@[simp] theorem State.dropXfer_fresh (s : State) (id : Nat) : (s.dropXfer id).fresh = s.fresh := rfl
@[simp] theorem State.dropXfer_boot (s : State) (id : Nat) : (s.dropXfer id).boot = s.boot := rfl
@[simp] theorem State.dropXfer_tick (s : State) (id : Nat) : (s.dropXfer id).tick = s.tick := rfl
@[simp] theorem State.dropXfer_bap (s : State) (id : Nat) : (s.dropXfer id).bap = s.bap := rfl
@[simp] theorem State.dropXfer_wins (s : State) (id : Nat) : (s.dropXfer id).wins = s.wins := rfl
@[simp] theorem State.dropXfer_gens (s : State) (id : Nat) : (s.dropXfer id).gens = s.gens := rfl
@[simp] theorem State.dropXfer_ops (s : State) (id : Nat) : (s.dropXfer id).ops = s.ops := rfl
@[simp] theorem State.dropXfer_pwr (s : State) (id : Nat) : (s.dropXfer id).pwr = s.pwr := rfl
@[simp] theorem State.dropXfer_mem (s : State) (id : Nat) : (s.dropXfer id).mem = s.mem := rfl
@[simp] theorem State.dropXfer_qs (s : State) (id : Nat) : (s.dropXfer id).qs = s.qs := rfl
@[simp] theorem State.dropXfer_ingest (s : State) (id : Nat) : (s.dropXfer id).ingest = s.ingest := rfl
@[simp] theorem State.dropXfer_wheel (s : State) (id : Nat) : (s.dropXfer id).wheel = s.wheel := rfl
@[simp] theorem State.dropXfer_sched (s : State) (id : Nat) : (s.dropXfer id).sched = s.sched := rfl
@[simp] theorem State.dropXfer_serving (s : State) (id : Nat) : (s.dropXfer id).serving = s.serving := rfl
@[simp] theorem State.dropXfer_raster (s : State) (id : Nat) : (s.dropXfer id).raster = s.raster := rfl
@[simp] theorem State.dropXfer_vision (s : State) (id : Nat) : (s.dropXfer id).vision = s.vision := rfl
@[simp] theorem State.dropXfer_solver (s : State) (id : Nat) : (s.dropXfer id).solver = s.solver := rfl
@[simp] theorem State.dropXfer_pipes (s : State) (id : Nat) : (s.dropXfer id).pipes = s.pipes := rfl
@[simp] theorem State.dropXfer_watch (s : State) (id : Nat) : (s.dropXfer id).watch = s.watch := rfl
@[simp] theorem State.dropXfer_tap (s : State) (id : Nat) : (s.dropXfer id).tap = s.tap := rfl

/-! ## What the updates write -/

theorem State.set_od (s : State) (k v : Nat) : (s.set k v).od = mput (constDefault k) s.od k (v % 2 ^ widthOf k) := rfl

@[simp] theorem State.emit_out (s : State) (o : Out) : (s.emit o).out = o :: s.out := rfl

@[simp] theorem State.spend_fresh (s : State) : s.spend.fresh = s.fresh + 1 := rfl

@[simp] theorem State.advance_now (s : State) (dt : Nat) : (s.advance dt).now = s.now + dt := rfl

theorem State.advance_jobs (s : State) (dt : Nat) : (s.advance dt).qs.jobs = s.qs.jobs.map (s.jobCycles dt) := rfl

@[simp] theorem State.when_true (s : State) (f : State → State) : s.when true f = f s := rfl

@[simp] theorem State.when_false (s : State) (f : State → State) : s.when false f = s := rfl

end Sys2Proof.Machine
end

