-- ==== Sys2Proof/Laws/Ops.lean ====
section
/-! SUPPORT. What each shared operation over objects, events, NOTIFYs, long operations and jobs can do, said once. -/

namespace Sys2Proof.Machine

/-! ## Objects -/

theorem State.get_congr {s t : State} (h : s.od = t.od) (k : Nat) : s.get k = t.get k := by
  unfold State.get; rw [h]

/-- A held object reads what was last written, cut to its width. -/
theorem State.get_set_self (s : State) (k v : Nat) : (s.set k v).get k = v % 2 ^ widthOf k := by
  unfold State.get
  rw [State.set_od, mgetD_mput_self]

/-- A write of one object leaves every other object alone. -/
theorem State.get_set_other (s : State) {k j : Nat} (v : Nat) (h : j ≠ k) : (s.set k v).get j = s.get j := by
  unfold State.get
  rw [State.set_od, mgetD_mput_other _ _ _ _ h]

theorem State.get_set (s : State) (k j v : Nat) :
    (s.set k v).get j = if j = k then v % 2 ^ widthOf k else s.get j := by
  split
  · rename_i h; subst h; exact s.get_set_self j v
  · rename_i h; exact s.get_set_other v h

@[simp] theorem State.emit_get (s : State) (o : Out) (k : Nat) : (s.emit o).get k = s.get k := rfl
@[simp] theorem State.spend_get (s : State) (k : Nat) : s.spend.get k = s.get k := rfl
@[simp] theorem State.advance_get (s : State) (dt k : Nat) : (s.advance dt).get k = s.get k := rfl
@[simp] theorem State.advance_on (s : State) (dt k : Nat) : (s.advance dt).on k = s.on k := rfl
@[simp] theorem State.advance_pd (s : State) (dt d : Nat) : (s.advance dt).pd d = s.pd d := rfl
@[simp] theorem State.advance_netUp_rom (s : State) (dt : Nat) (h : s.boot.phase = .running) : (s.advance dt).netUp = true := by
  unfold State.netUp; simp [h]
@[simp] theorem State.advance_alive (s : State) (dt : Nat) : (s.advance dt).alive = s.alive := rfl

/-- Setting several objects changes objects only. -/
theorem State.sets_eq (s : State) (l : List (Nat × Nat)) : ∃ od, s.sets l = { s with od := od } := by
  induction l generalizing s with
  | nil => exact ⟨s.od, rfl⟩
  | cons e r ih =>
    obtain ⟨od, h⟩ := ih (s.set e.1 e.2)
    exact ⟨od, h⟩

/-- What every write of one object keeps, a list of writes keeps. -/
theorem State.sets_ind (P : State → Prop) {s : State} (l : List (Nat × Nat)) (h : P s)
    (hf : ∀ t k v, P t → P (t.set k v)) : P (s.sets l) := by
  induction l generalizing s with
  | nil => exact h
  | cons e r ih => exact ih (s := s.set e.1 e.2) (hf s e.1 e.2 h)

/-- What a write of one object keeps holds after it. -/
theorem State.set_ind (P : State → Prop) {s : State} {k v : Nat} (h : P s) (hf : ∀ t k v, P t → P (t.set k v)) :
    P (s.set k v) := hf s k v h

/-- An object that is not in the list keeps its value. -/
theorem State.get_sets_other (s : State) (l : List (Nat × Nat)) (j : Nat) (h : ∀ e ∈ l, j ≠ e.1) :
    (s.sets l).get j = s.get j := by
  induction l generalizing s with
  | nil => rfl
  | cons e r ih =>
    have := ih (s.set e.1 e.2) (fun x hx => h x (List.mem_cons_of_mem _ hx))
    exact this.trans (s.get_set_other e.2 (h e List.mem_cons_self))

/-- A counter grows by `n`, and stops at its limit (R382). -/
theorem State.get_incBy (s : State) (k n : Nat) :
    (s.incBy k n).get k = min (countLimit k) (s.get k + n) := by
  unfold State.incBy
  rw [State.get_set_self]
  apply Nat.mod_eq_of_lt
  have : countLimit k < 2 ^ widthOf k := by
    unfold countLimit
    split
    · rename_i h64
      have h64 : widthOf k = 64 := by simpa using h64
      rw [h64]; decide
    · have := Nat.one_le_two_pow (n := widthOf k)
      omega
  omega

/-! ## Frames, NOTIFYs and events -/

theorem State.sendTo_eq (s : State) (node mac : Nat) (b : List Byte) :
    ∃ bap out, s.sendTo node mac b = { s with bap := bap, out := out } := by
  unfold State.sendTo
  split
  · exact ⟨_, s.out, rfl⟩
  · exact ⟨s.bap, _, rfl⟩

theorem State.putSession_eq (s : State) (x : Session) : ∃ bap, s.putSession x = { s with bap := bap } := ⟨_, rfl⟩

/-- A NOTIFY moves its sequence number and the session of its node, and leaves or waits. -/
theorem State.notifyTo_eq (s : State) (node mac kind result handle : Nat) :
    ∃ bap out, s.notifyTo node mac kind result handle = { s with bap := bap, out := out } := by
  unfold State.notifyTo
  split
  · exact ⟨s.bap, s.out, rfl⟩
  · dsimp only
    split
    · exact State.sendTo_eq ..
    · exact State.sendTo_eq ..

theorem State.notifyDest_eq (s : State) (kind result handle : Nat) :
    ∃ bap out, s.notifyDest kind result handle = { s with bap := bap, out := out } := State.notifyTo_eq ..

/-- While the field network is down no NOTIFY leaves. -/
theorem State.notifyTo_down (s : State) (node mac kind result handle : Nat) (h : s.netUp = false) :
    s.notifyTo node mac kind result handle = s := by
  unfold State.notifyTo; simp [h]

theorem State.when_eq_ite (s : State) (c : Bool) (f : State → State) : s.when c f = if c = true then f s else s := rfl

/-- What holds before a conditional update and is kept by the update holds after it. -/
theorem State.when_ind (P : State → Prop) {s : State} {c : Bool} {f : State → State} (h : P s)
    (hf : ∀ t, P t → P (f t)) : P (s.when c f) := by
  cases c
  · exact h
  · exact hf s h

/-- Posting an event writes the log and objects, and may send a NOTIFY (R357). -/
theorem State.postN_eq (s : State) (cls code count index unit arg : Nat) :
    ∃ od ev bap out, s.postN cls code count index unit arg = { s with od := od, events := ev, bap := bap, out := out } := by
  unfold State.postN
  refine State.when_ind (fun t => ∃ od ev bap out, t = { s with od := od, events := ev, bap := bap, out := out }) ?_ ?_
  · refine State.when_ind (fun t => ∃ od ev bap out, t = { s with od := od, events := ev, bap := bap, out := out }) ?_ ?_
    · refine State.set_ind (fun t => ∃ od ev bap out, t = { s with od := od, events := ev, bap := bap, out := out }) ?_ ?_
      · refine State.when_ind (fun t => ∃ od ev bap out, t = { s with od := od, events := ev, bap := bap, out := out }) ?_ ?_
        · exact ⟨s.od, _, s.bap, s.out, rfl⟩
        · rintro t ⟨od, ev, bap, out, rfl⟩
          exact ⟨_, ev, bap, out, rfl⟩
      · rintro t k v ⟨od, ev, bap, out, rfl⟩
        exact ⟨_, ev, bap, out, rfl⟩
    · rintro t ⟨od, ev, bap, out, rfl⟩
      obtain ⟨bap', out', h⟩ := State.notifyDest_eq { s with od := od, events := ev, bap := bap, out := out } 2 Ab.OK
        (s.get Od.EVT_NEXT)
      exact ⟨od, ev, bap', out', h⟩
  · rintro t ⟨od, ev, bap, out, rfl⟩
    exact ⟨_, ev, bap, out, rfl⟩

theorem State.msix_eq (s : State) (fn v : Nat) : ∃ wins out, s.msix fn v = { s with wins := wins, out := out } := by
  unfold State.msix
  split
  · exact ⟨s.wins, s.out, rfl⟩
  · dsimp only
    split
    · exact ⟨_, s.out, rfl⟩
    · exact ⟨s.wins, _, rfl⟩

theorem State.msix_down (s : State) (fn v : Nat) (h : s.boot.pcieUp = false) : s.msix fn v = s := by
  unfold State.msix; simp [h]

theorem State.gatherN_eq (s : State) (cls code index unit arg count : Nat) :
    ∃ od ev g bap out, s.gatherN cls code index unit arg count =
      { s with od := od, events := ev, gather := g, bap := bap, out := out } := by
  unfold State.gatherN
  dsimp only
  split
  · obtain ⟨od, ev, bap, out, h⟩ := State.postN_eq s cls code count index unit arg
    exact ⟨od, ev, s.gather, bap, out, h⟩
  · split
    · exact ⟨s.od, s.events, _, s.bap, s.out, rfl⟩
    · exact ⟨s.od, s.events, _, s.bap, s.out, rfl⟩

/-- Completing a long operation (R53) touches the table, the running operations and what is sent. -/
theorem State.finishOp_eq (s : State) (slot result : Nat) :
    ∃ od ops bap wins out, s.finishOp slot result = { s with od := od, ops := ops, bap := bap, wins := wins, out := out } := by
  unfold State.finishOp
  split
  · exact ⟨s.od, s.ops, s.bap, s.wins, s.out, rfl⟩
  · rename_i o ho
    obtain ⟨od, hs⟩ := State.sets_eq { s with ops := s.ops.filter (fun o => o.slot.val != slot) }
      [(Od.RESULT slot, result), (Od.DONE_TS slot, s.ts), (Od.PROGRESS slot, 100), (Od.STATE slot, 2)]
    dsimp only
    have hts : ({ s with ops := s.ops.filter (fun o => o.slot.val != slot) } : State).ts = s.ts := rfl
    rw [hts, hs]
    split
    · obtain ⟨bap, out, h⟩ := State.notifyTo_eq (State.irq { s with ops := s.ops.filter (fun o => o.slot.val != slot), od := od } 2)
        _ _ 1 result _
      exact ⟨_, _, bap, s.wins, out, by rw [h]; rfl⟩
    · obtain ⟨bap, out, h⟩ := State.notifyDest_eq (State.irq { s with ops := s.ops.filter (fun o => o.slot.val != slot), od := od } 2)
        1 result _
      rw [h]
      obtain ⟨wins, out', h'⟩ := State.msix_eq
        { (State.irq { s with ops := s.ops.filter (fun o => o.slot.val != slot), od := od } 2) with bap := bap, out := out } _ 0
      exact ⟨_, _, bap, wins, out', by rw [h']; rfl⟩
    · obtain ⟨bap, out, h⟩ := State.notifyDest_eq (State.irq { s with ops := s.ops.filter (fun o => o.slot.val != slot), od := od } 2)
        1 result _
      exact ⟨_, _, bap, s.wins, out, by rw [h]; rfl⟩

/-- Starting a long operation (R52) takes a slot of the table. -/
theorem State.startOp_eq (s : State) (kind : OpKind) (via : Path) (key h : Nat) (t : State)
    (e : s.startOp kind via key = some (h, t)) :
    ∃ od gens ops fresh, t = { s with od := od, gens := gens, ops := ops, fresh := fresh } := by
  unfold State.startOp at e
  generalize s.pickSlot = p at e
  cases p with
  | none => cases e
  | some i =>
    have e := congrArg Prod.snd (Option.some.inj e)
    dsimp only at e
    rw [← e]
    refine State.sets_ind
      (fun t => ∃ od gens ops fresh, t = { s with od := od, gens := gens, ops := ops, fresh := fresh }) _ ?_ ?_
    · generalize (via == Path.fw) = c
      cases c
      · exact ⟨s.od, _, _, s.fresh, rfl⟩
      · exact ⟨s.od, _, _, _, rfl⟩
    · rintro t k v ⟨od, gens, ops, fresh, rfl⟩
      exact ⟨_, gens, ops, fresh, rfl⟩

/-! ## Jobs -/

theorem State.putFlag_eq (s : State) (fence : Bool) (id : Nat) (f : FlagSt) :
    ∃ qs, s.putFlag fence id f = { s with qs := qs } := by
  unfold State.putFlag
  split
  · exact ⟨_, rfl⟩
  · exact ⟨_, rfl⟩

theorem State.setFlag_eq (s : State) (fence : Bool) (id v : Nat) : ∃ qs, s.setFlag fence id v = { s with qs := qs } :=
  State.putFlag_eq ..

theorem State.set_inc_eq (s : State) (k v j : Nat) : ∃ od, (s.set k v).inc j = { s with od := od } := ⟨_, rfl⟩

theorem State.poison_eq (s : State) (fence : Bool) (id p : Nat) :
    ∃ qs od, s.poison fence id p = { s with qs := qs, od := od } := by
  unfold State.poison
  generalize ({ s.flag fence id with poison := true, p := p % 2 ^ 32 } : FlagSt) = f
  generalize (if fence then 2 ^ 48 else 0) + id * 2 ^ 32 + p % 2 ^ 32 = v
  obtain ⟨qs, h⟩ := State.putFlag_eq s fence id f
  obtain ⟨od, h'⟩ := State.set_inc_eq { s with qs := qs } Od.POISON_LAST v Od.POISON_COUNT
  exact ⟨qs, od, by rw [h, h']⟩

/-- A value set is read back, and POISON is clear (R155, R362). -/
theorem State.flag_setFlag (s : State) (fence : Bool) (id v : Nat) :
    (s.setFlag fence id v).flag fence id = { val := v % 2 ^ 32, poison := false, p := 0 } := by
  unfold State.setFlag State.putFlag State.flag
  cases fence <;> simp [mgetD_mput_self]

/-- A job that ends FAULT posts at most one event, and its unit is free. -/
theorem State.faultJob_eq (s : State) (j : Job) (cause struct off va : Nat) :
    ∃ od ev bap out qs sched, s.faultJob j cause struct off va =
      { s with od := od, events := ev, bap := bap, out := out, qs := qs, sched := sched } := by
  have h : ∃ od ev bap out, s.when (cause == 4) (fun s => s.post 2 2 (0x4000 + j.id.q.val) j.client va) =
      { s with od := od, events := ev, bap := bap, out := out } := by
    cases cause == 4
    · exact ⟨s.od, s.events, s.bap, s.out, rfl⟩
    · exact State.postN_eq ..
  obtain ⟨od, ev, bap, out, h⟩ := h
  unfold State.faultJob
  rw [h]
  exact ⟨od, ev, bap, out, _, _, rfl⟩

end Sys2Proof.Machine
end

