-- ==== Sys2Proof/Laws/Memory.lean ====
section
/-! SUPPORT. Memory laws: what is written reads back, every other byte stays, and every memory operation keeps the
canonical form of memory. -/

namespace Sys2Proof.Machine

/-! ## One byte -/

theorem State.setCell_cell_self (s : State) (p : Phys) (b : Byte) : (s.setCell p b).cell p = b := by
  cases p <;> simp [State.setCell, State.cell, mgetD_mput_self]

/-- Two places are the same byte: host places are compared by their key. -/
def Phys.same : Phys → Phys → Bool
  | .dram a, .dram b => a == b
  | .mill a, .mill b => a == b
  | .host f a, .host g b => hostKey f a == hostKey g b
  | _, _ => false

/-- A write of one byte leaves every other byte alone. -/
theorem State.setCell_cell_other (s : State) {p q : Phys} (b : Byte) (h : Phys.same q p = false) :
    (s.setCell p b).cell q = s.cell q := by
  cases p <;> cases q <;>
    first
    | rfl
    | exact mgetD_mput_other _ _ _ _ (by simpa [Phys.same] using h)

@[simp] theorem State.setCell_get (s : State) (p : Phys) (b : Byte) (k : Nat) : (s.setCell p b).get k = s.get k := by
  cases p <;> rfl

/-- Byte writes of a list touch memory only. -/
theorem State.setCell_eq (s : State) (p : Phys) (b : Byte) : ∃ m, s.setCell p b = { s with mem := m } := by
  cases p <;> exact ⟨_, rfl⟩

/-- What every byte write keeps, a list of byte writes keeps. -/
theorem State.setCells_ind (P : State → Prop) {s : State} (p : Phys) (l : List Byte) (h : P s)
    (hf : ∀ t q b, P t → P (t.setCell q b)) : P (s.setCells p l) := by
  unfold State.setCells
  suffices ∀ (l : List Byte) (x : State × Nat), P x.1 →
      P (l.foldl (fun (x : State × Nat) b => (x.1.setCell (p.plus x.2) b, x.2 + 1)) x).1 from this l (s, 0) h
  intro l
  induction l with
  | nil => exact fun x hx => hx
  | cons b r ih => exact fun x hx => ih _ (hf _ _ _ hx)

/-- Whatever all steps of a fold keep, the fold keeps. -/
theorem foldl_ind {α β : Type} (P : β → Prop) (f : β → α → β) (hf : ∀ x a, P x → P (f x a)) :
    ∀ (l : List α) (x : β), P x → P (l.foldl f x)
  | [], _, h => h
  | a :: r, _, h => foldl_ind P f hf r _ (hf _ a h)

/-! ## Canonical form -/

/-- The form speaks of five maps only. -/
theorem Memory.wf_congr {m n : MemSt} (h1 : m.dram = n.dram) (h2 : m.millpond = n.millpond) (h3 : m.host = n.host)
    (h4 : m.metaDram = n.metaDram) (h5 : m.metaMill = n.metaMill) : Memory.wf m = Memory.wf n := by
  unfold Memory.wf; rw [h1, h2, h3, h4, h5]

theorem Memory.wf_iff (m : MemSt) : Memory.wf m = true ↔ mapWf 0 m.dram = true ∧ mapWf 0 m.millpond = true ∧
    mapWf 0 m.host = true ∧ mapWf 0 m.metaDram = true ∧ mapWf 0 m.metaMill = true := by
  simp [Memory.wf, and_assoc]

/-- Reset memory has the form. -/
theorem reset_memory_wf : Memory.wf State.reset.mem = true := rfl

theorem State.setCell_wf {s : State} (p : Phys) (b : Byte) (h : Memory.wf s.mem = true) :
    Memory.wf (s.setCell p b).mem = true := by
  rw [Memory.wf_iff] at *
  obtain ⟨h1, h2, h3, h4, h5⟩ := h
  cases p
  · exact ⟨mapWf_mput 0 _ _ h1, h2, h3, h4, h5⟩
  · exact ⟨h1, mapWf_mput 0 _ _ h2, h3, h4, h5⟩
  · exact ⟨h1, h2, mapWf_mput 0 _ _ h3, h4, h5⟩

theorem State.setCells_wf {s : State} (p : Phys) (l : List Byte) (h : Memory.wf s.mem = true) :
    Memory.wf (s.setCells p l).mem = true :=
  State.setCells_ind (fun t => Memory.wf t.mem = true) p l h (fun _ q b => State.setCell_wf q b)

theorem State.setCode_wf {s : State} (p : Phys) (c : Nat) (h : Memory.wf s.mem = true) :
    Memory.wf (s.setCode p c).mem = true := by
  rw [Memory.wf_iff] at *
  obtain ⟨h1, h2, h3, h4, h5⟩ := h
  cases p
  · exact ⟨h1, h2, h3, mapWf_mput 0 _ _ h4, h5⟩
  · exact ⟨h1, h2, h3, h4, mapWf_mput 0 _ _ h5⟩
  · exact ⟨h1, h2, h3, h4, h5⟩

theorem damage_wf {m : Map Byte} (a : Nat) (l : List Byte) (h : mapWf 0 m = true) : mapWf 0 (damage m a l) = true :=
  foldl_ind (fun m => mapWf (0 : Byte) m = true) _ (fun _ _ hm => mapWf_mput 0 _ _ hm) _ _ h

theorem damageIn_wf {m : Map Byte} (c a n : Nat) (s : State) (h : mapWf 0 m = true) :
    mapWf 0 (damageIn m c a n s) = true := by
  unfold damageIn
  split
  · exact damage_wf _ _ h
  · split
    · exact damage_wf _ _ h
    · exact h

/-- An error that strikes damages bytes and keeps the form. -/
theorem State.upset_wf {s : State} (u : Upset) (h : Memory.wf s.mem = true) : Memory.wf (s.upset u).mem = true := by
  have hw := (Memory.wf_iff s.mem).1 h
  obtain ⟨h1, h2, h3, h4, h5⟩ := hw
  unfold State.upset
  split
  · exact h
  · split
    · exact h
    · split
      · exact (Memory.wf_iff _).2 ⟨damageIn_wf _ _ _ _ h1, h2, h3, h4, h5⟩
      · exact h
  · split
    · exact (Memory.wf_iff _).2 ⟨damageIn_wf _ _ _ _ h1, h2, h3, h4, h5⟩
    · exact h
  · exact h
  · split
    · exact (Memory.wf_iff _).2 ⟨h1, damageIn_wf _ _ _ _ h2, h3, h4, h5⟩
    · exact h
  · exact h

theorem State.upsets_wf {s : State} (l : List Upset) (h : Memory.wf s.mem = true) : Memory.wf (s.upsets l).mem = true :=
  foldl_ind (fun t : State => Memory.wf t.mem = true) _ (fun _ u => State.upset_wf u) l s h

theorem State.uncorr_mem (s : State) (a : Nat) : (s.uncorr a).mem = s.mem := by
  unfold State.uncorr State.post
  obtain ⟨od, ev, bap, out, h⟩ := State.postN_eq ((s.inc Od.ECC_UNCORR).set Od.ECC_LAST_ADDR a) 2 1 1 0x9000 0 a
  rw [h]
  rfl

/-- The stored bytes and codes of a state. -/
def MemSt.store (m : MemSt) : Map Byte × Map Byte × Map Byte × Map Nat × Map Nat :=
  (m.dram, m.millpond, m.host, m.metaDram, m.metaMill)

theorem Memory.wf_of_store {m n : MemSt} (h : m.store = n.store) : Memory.wf m = Memory.wf n := by
  simp only [MemSt.store, Prod.mk.injEq] at h
  exact Memory.wf_congr h.1 h.2.1 h.2.2.1 h.2.2.2.1 h.2.2.2.2

/-- States with the same store hold the same bytes. -/
theorem State.cell_of_store {s t : State} (h : s.mem.store = t.mem.store) (p : Phys) : s.cell p = t.cell p := by
  simp only [MemSt.store, Prod.mk.injEq] at h
  cases p <;> simp [State.cell, h]

theorem State.touch_store (s : State) (p : Phys) : (s.touch p).mem.store = s.mem.store := by
  cases p
  · unfold State.touch State.touchDram State.wakeDram
    dsimp only
    split <;> rfl
  · rfl
  · rfl

theorem State.healUnit_store (s : State) (p : Phys) (k : Nat) : (s.healUnit p k).mem.store = s.mem.store := by
  cases p <;> rfl

theorem State.when_inc_mem (s : State) (c : Bool) (k : Nat) : (s.when c (·.inc k)).mem = s.mem := by
  cases c <;> rfl

/-- Reading stores nothing. -/
theorem State.rdServed_store (s : State) (p : Phys) (c : Bool) (n : Nat) :
    (s.rdServed p c n).1.mem.store = s.mem.store := by
  unfold State.rdServed
  dsimp only
  rw [State.when_inc_mem]
  refine foldl_ind (fun t : State => t.mem.store = s.mem.store) _ ?_ _ _ (State.touch_store s p)
  intro t u h
  rw [State.uncorr_mem]
  exact h

theorem State.rdChunk_store (s : State) (p : Phys) (c : Bool) (n : Nat) :
    (s.rdChunk p c n).1.mem.store = s.mem.store := by
  unfold State.rdChunk
  split
  · rfl
  · exact State.rdServed_store s p c n

/-- Merging with damaged units stores nothing. -/
theorem State.mergeUnits_store (s : State) (p : Phys) (c : Bool) (n : Nat) :
    (s.mergeUnits p c n).mem.store = s.mem.store := by
  unfold State.mergeUnits
  dsimp only
  split
  all_goals
    refine foldl_ind (fun t : State => t.mem.store = s.mem.store) _ ?_ _ _ rfl
    intro t u h
    split
    · exact (State.healUnit_store t p u.1).trans h
    · rw [State.uncorr_mem]; exact h

theorem State.wrChunk_wf {s : State} (p : Phys) (c : Bool) (l : List Byte) (k : Option Byte)
    (h : Memory.wf s.mem = true) : Memory.wf (s.wrChunk p c l k).mem = true := by
  unfold State.wrChunk
  have h1 : Memory.wf ((s.touch p).mergeUnits p c l.length).mem = true := by
    rw [Memory.wf_of_store (State.mergeUnits_store ..), Memory.wf_of_store (State.touch_store s p)]; exact h
  dsimp only
  split
  · exact h
  split
  · exact State.setCode_wf p _ (State.setCells_wf p l h1)
  · refine State.setCells_wf p l ?_
    split
    · exact State.setCode_wf p 0 (State.setCells_wf _ _ h1)
    · exact h1

theorem State.rdEntry_store (s : State) (a : Nat) : (s.rdEntry a).1.mem.store = s.mem.store :=
  State.rdServed_store s _ _ _

/-- A walk reads tables and caches entries; it stores nothing. -/
theorem State.walk_store (s : State) (cl va : Nat) : (s.walk cl va).1.mem.store = s.mem.store := by
  unfold State.walk
  dsimp only
  split
  · rfl
  · split
    · rfl
    · split
      · rename_i t h; exact (congrArg (fun x => x.1.mem.store) h).symm.trans (State.rdEntry_store ..)
      · rename_i t e h
        have ht : t.mem.store = s.mem.store := (congrArg (fun x => x.1.mem.store) h).symm.trans (State.rdEntry_store ..)
        split
        · exact ht
        · split
          · rename_i u h2; exact ((congrArg (fun x => x.1.mem.store) h2).symm.trans (State.rdEntry_store ..)).trans ht
          · rename_i u e2 h2
            have hu : u.mem.store = s.mem.store :=
              ((congrArg (fun x => x.1.mem.store) h2).symm.trans (State.rdEntry_store ..)).trans ht
            split
            · exact hu
            · exact hu

/-- Translating an address stores nothing. -/
theorem State.resolve_store (s : State) (cl va : Nat) (w : Bool) : (s.resolve cl va w).1.mem.store = s.mem.store := by
  unfold State.resolve
  split
  · rfl
  · split
    · split <;> rfl
    · split
      · rename_i t h; exact (congrArg (fun x => x.1.mem.store) h).symm.trans (State.walk_store ..)
      · rename_i t e h; exact (congrArg (fun x => x.1.mem.store) h).symm.trans (State.walk_store ..)

/-- A client's read stores nothing: every byte and every compression code stays. -/
theorem State.rd_store (s : State) (cl va n : Nat) : (s.rd cl va n).1.mem.store = s.mem.store := by
  unfold State.rd
  refine foldl_ind (fun x : State × List Byte × Option MemFault => x.1.mem.store = s.mem.store) _ ?_ _ _ rfl
  rintro ⟨t, out, f⟩ ch h
  dsimp only
  split
  · exact h
  · split
    · rename_i u hu; exact ((congrArg (fun x => x.1.mem.store) hu).symm.trans (State.resolve_store ..)).trans h
    · rename_i u p c hu
      exact (State.rdChunk_store ..).trans
        (((congrArg (fun x => x.1.mem.store) hu).symm.trans (State.resolve_store ..)).trans h)

theorem State.rdThrough_store (s : State) (cl va n : Nat) : (s.rdThrough cl va n).1.mem.store = s.mem.store := by
  unfold State.rdThrough
  refine foldl_ind (fun x : State × List Byte × Option MemFault => x.1.mem.store = s.mem.store) _ ?_ _ _ rfl
  rintro ⟨t, out, f⟩ ch h
  dsimp only
  split
  · rename_i u hu; exact ((congrArg (fun x => x.1.mem.store) hu).symm.trans (State.resolve_store ..)).trans h
  · rename_i u p c hu
    exact (State.rdChunk_store ..).trans
      (((congrArg (fun x => x.1.mem.store) hu).symm.trans (State.resolve_store ..)).trans h)

theorem State.probe_store (s : State) (cl va n : Nat) (w : Bool) : (s.probe cl va n w).1.mem.store = s.mem.store := by
  unfold State.probe
  split
  · rfl
  · refine foldl_ind (fun x : State × Option Nat × List Bool => x.1.mem.store = s.mem.store) _ ?_ _ _ rfl
    rintro ⟨t, f, cs⟩ pg h
    dsimp only
    split
    · exact h
    · split
      · rename_i u hu; exact ((congrArg (fun x => x.1.mem.store) hu).symm.trans (State.resolve_store ..)).trans h
      · rename_i u p c hu
        exact ((congrArg (fun x => x.1.mem.store) hu).symm.trans (State.resolve_store ..)).trans h

theorem State.rdPart_store (s : State) (p o n : Nat) : (s.rdPart p o n).1.mem.store = s.mem.store := by
  unfold State.rdPart
  refine foldl_ind (fun x : State × List Byte => x.1.mem.store = s.mem.store) _ ?_ _ _ rfl
  rintro ⟨t, out⟩ ch h
  exact (State.rdChunk_store ..).trans h

/-- A client's write keeps the form. -/
theorem State.wrClear_wf {s : State} (cl va : Nat) (l : List Byte) (k : Option Byte) (h : Memory.wf s.mem = true) :
    Memory.wf (s.wrClear cl va l k).1.mem = true := by
  unfold State.wrClear
  refine foldl_ind (fun x : State × Option MemFault => Memory.wf x.1.mem = true) _ ?_ _ _ h
  rintro ⟨t, f⟩ ch ht
  dsimp only at *
  split
  · exact ht
  · split
    · rename_i u hu
      have := (congrArg (fun x => x.1.mem.store) hu).symm.trans (State.resolve_store ..)
      exact (Memory.wf_of_store this).trans ht
    · rename_i u p c hu
      have := (congrArg (fun x => x.1.mem.store) hu).symm.trans (State.resolve_store ..)
      exact State.wrChunk_wf _ _ _ _ ((Memory.wf_of_store this).trans ht)

theorem State.wr_wf {s : State} (cl va : Nat) (l : List Byte) (h : Memory.wf s.mem = true) :
    Memory.wf (s.wr cl va l).1.mem = true := State.wrClear_wf cl va l none h

theorem State.wrPart_wf {s : State} (p o : Nat) (l : List Byte) (h : Memory.wf s.mem = true) :
    Memory.wf (s.wrPart p o l).mem = true :=
  foldl_ind (fun t : State => Memory.wf t.mem = true) _ (fun _ _ ht => State.wrChunk_wf _ _ _ _ ht) _ _ h

/-- Reads keep the form, since they store nothing. -/
theorem State.rd_wf {s : State} (cl va n : Nat) (h : Memory.wf s.mem = true) : Memory.wf (s.rd cl va n).1.mem = true :=
  (Memory.wf_of_store (State.rd_store ..)).trans h

theorem State.rdThrough_wf {s : State} (cl va n : Nat) (h : Memory.wf s.mem = true) :
    Memory.wf (s.rdThrough cl va n).1.mem = true := (Memory.wf_of_store (State.rdThrough_store ..)).trans h

theorem State.rdPart_wf {s : State} (p o n : Nat) (h : Memory.wf s.mem = true) :
    Memory.wf (s.rdPart p o n).1.mem = true := (Memory.wf_of_store (State.rdPart_store ..)).trans h

theorem State.probe_wf {s : State} (cl va n : Nat) (w : Bool) (h : Memory.wf s.mem = true) :
    Memory.wf (s.probe cl va n w).1.mem = true := (Memory.wf_of_store (State.probe_store ..)).trans h

/-- Zero-filling banks keeps the form (R124, R125). -/
theorem MemSt.zeroBanks_wf {m : MemSt} (b : Nat → Bool) (h : Memory.wf m = true) : Memory.wf (m.zeroBanks b) = true := by
  rw [Memory.wf_iff] at *
  obtain ⟨h1, h2, h3, h4, h5⟩ := h
  exact ⟨h1, mapWf_filter 0 (fun k => !b (k / mib2)) h2, h3, h4, mapWf_filter 0 (fun k => !b (k * 256 / mib2)) h5⟩

end Sys2Proof.Machine
end

