-- ==== Sys2Proof/Laws/Closed.lean ====
section
/-! SUPPORT. What a memory operation can do, said once: it writes objects of index 0x9000 and above, memory, the event log,
what is sent, and the count of free values. A property that these updates keep is kept by every memory operation. -/

namespace Sys2Proof.Machine

/-- The objects that a memory operation writes, beside those of a client's translation faults. -/
def memKeys : List Nat :=
  [Od.LINK_ECC_CORR, Od.ECC_CORR, Od.MP_ECC_CORR, Od.ECC_UNCORR, Od.ECC_LAST_ADDR, Od.CMP_META_ERR, Od.SR_TIME_NS,
   Od.EVT_NEXT, Od.EVT_LOST, Od.IRQ_PEND]

/-- The objects that a memory operation of clients in `C` can write. -/
def MemKey (C : Nat → Prop) (k : Nat) : Prop :=
  k ∈ memKeys ∨ ∃ n, C n ∧ (k = Od.XLAT_FAULT_VA n ∨ k = Od.XLAT_FAULT_COUNT n)

theorem MemKey.fixed {C : Nat → Prop} {k : Nat}
    (h : k ∈ memKeys) : MemKey C k := .inl h

theorem MemKey.ge {C : Nat → Prop} {k : Nat} (h : MemKey C k) : 0x900000 ≤ k := by
  rcases h with h | ⟨n, -, rfl | rfl⟩
  · exact (show ∀ x ∈ memKeys, 0x900000 ≤ x by decide) k h
  · unfold Od.XLAT_FAULT_VA; omega
  · unfold Od.XLAT_FAULT_COUNT; omega

/-- A property of states that the updates of a memory operation keep. -/
structure MemClosed (C : Nat → Prop) (P : State → Prop) : Prop where
  set : ∀ t k v, MemKey C k → P t → P (t.set k v)
  mem : ∀ t m, P t → P { t with mem := m }
  log : ∀ t ev bap out, P t → P { t with events := ev, bap := bap, out := out }
  spend : ∀ t, P t → P t.spend

namespace MemClosed

variable {C : Nat → Prop} {P : State → Prop} (c : MemClosed C P)

include c

theorem incBy (k n : Nat) (hk : MemKey C k) {s : State} (h : P s) : P (s.incBy k n) := c.set _ _ _ hk h

theorem inc (k : Nat) (hk : MemKey C k) {s : State} (h : P s) : P (s.inc k) := c.set _ _ _ hk h

theorem notifyDest (kind result handle : Nat) {s : State} (h : P s) : P (s.notifyDest kind result handle) := by
  obtain ⟨bap, out, e⟩ := State.notifyDest_eq s kind result handle
  rw [e]
  exact c.log s s.events bap out h

theorem postN (cls code count index unit arg : Nat) {s : State} (h : P s) : P (s.postN cls code count index unit arg) := by
  unfold State.postN
  refine State.when_ind P ?_ (fun t => c.set t _ _ (.fixed (by decide)))
  refine State.when_ind P ?_ (fun t => c.notifyDest _ _ _)
  refine c.set _ _ _ (.fixed (by decide)) ?_
  refine State.when_ind P ?_ (fun t => c.inc _ (.fixed (by decide)))
  exact c.log s _ s.bap s.out h

theorem post (cls code index unit arg : Nat) {s : State} (h : P s) : P (s.post cls code index unit arg) := c.postN _ _ _ _ _ _ h

theorem uncorr (a : Nat) {s : State} (h : P s) : P (s.uncorr a) :=
  c.post _ _ _ _ _ (c.set _ _ _ (.fixed (by decide)) (c.inc _ (.fixed (by decide)) h))

theorem upset (u : Upset) {s : State} (h : P s) : P (s.upset u) := by
  unfold State.upset
  split
  · exact c.inc _ (.fixed (by decide)) h
  · split
    · exact c.inc _ (.fixed (by decide)) h
    · split
      · exact c.mem _ _ (c.spend _ h)
      · exact h
  · split
    · exact c.mem _ _ (c.spend _ h)
    · exact h
  · exact c.inc _ (.fixed (by decide)) h
  · split
    · exact c.mem _ _ (c.spend _ h)
    · exact h
  · exact h

theorem upsets (l : List Upset) {s : State} (h : P s) : P (s.upsets l) := foldl_ind P _ (fun _ u => c.upset u) l s h

theorem wakeDram {s : State} (h : P s) : P s.wakeDram := by
  unfold State.wakeDram
  split
  · exact c.mem _ _ (c.set _ _ _ (.fixed (by decide)) h)
  · exact h

theorem touch (p : Phys) {s : State} (h : P s) : P (s.touch p) := by
  cases p
  · exact c.mem _ _ (c.wakeDram h)
  · exact c.mem _ _ h
  · exact h

theorem setCell (p : Phys) (b : Byte) {s : State} (h : P s) : P (s.setCell p b) := by
  cases p <;> exact c.mem _ _ h

theorem setCells (p : Phys) (l : List Byte) {s : State} (h : P s) : P (s.setCells p l) :=
  State.setCells_ind P p l h (fun _ _ _ => c.setCell _ _)

theorem setCode (p : Phys) (v : Nat) {s : State} (h : P s) : P (s.setCode p v) := by
  cases p
  · exact c.mem _ _ h
  · exact c.mem _ _ h
  · exact h

theorem healUnit (p : Phys) (k : Nat) {s : State} (h : P s) : P (s.healUnit p k) := by
  cases p
  · exact c.mem _ _ h
  · exact c.mem _ _ h
  · exact h

theorem rdServed (p : Phys) (b : Bool) (n : Nat) {s : State} (h : P s) : P (s.rdServed p b n).1 := by
  unfold State.rdServed
  refine State.when_ind P ?_ (fun t => c.inc _ (.fixed (by decide)))
  exact foldl_ind P _ (fun _ _ => c.uncorr _) _ _ (c.touch p h)

theorem rdChunk (p : Phys) (b : Bool) (n : Nat) {s : State} (h : P s) : P (s.rdChunk p b n).1 := by
  unfold State.rdChunk
  split
  · exact c.spend _ h
  · exact c.rdServed p b n h

theorem mergeUnits (p : Phys) (b : Bool) (n : Nat) {s : State} (h : P s) : P (s.mergeUnits p b n) := by
  unfold State.mergeUnits
  dsimp only
  split <;>
    (refine foldl_ind P _ ?_ _ _ h
     intro t u ht
     split
     · exact c.healUnit _ _ ht
     · exact c.uncorr _ ht)

theorem wrChunk (p : Phys) (b : Bool) (l : List Byte) (k : Option Byte) {s : State} (h : P s) : P (s.wrChunk p b l k) := by
  unfold State.wrChunk
  have h1 := c.mergeUnits p b l.length (c.touch p h)
  split
  · exact c.mem _ _ h
  · dsimp only
    split
    · exact c.setCode _ _ (c.setCells _ _ h1)
    · refine c.setCells _ _ ?_
      split
      · exact c.setCode _ _ (c.setCells _ _ h1)
      · exact h1

theorem rdEntry (a : Nat) {s : State} (h : P s) : P (s.rdEntry a).1 := c.rdServed (.dram a) false 8 h

theorem walk (cl va : Nat) {s : State} (h : P s) : P (s.walk cl va).1 := by
  unfold State.walk
  dsimp only
  split
  · exact h
  · split
    · exact h
    · split
      · rename_i t e; have := c.rdEntry (s.get (Od.XLAT_ROOT cl) + 8 * bitsOf va 28 12) h; rw [e] at this; exact this
      · rename_i t e1 e
        have ht : P t := by have := c.rdEntry (s.get (Od.XLAT_ROOT cl) + 8 * bitsOf va 28 12) h; rw [e] at this; exact this
        split
        · exact ht
        · split
          · rename_i u e'
            have := c.rdEntry (bitsOf e1 15 25 * 2 ^ 15 + 8 * bitsOf va 16 12) ht; rw [e'] at this; exact this
          · rename_i u e2 e'
            have hu : P u := by
              have := c.rdEntry (bitsOf e1 15 25 * 2 ^ 15 + 8 * bitsOf va 16 12) ht; rw [e'] at this; exact this
            split
            · exact hu
            · exact c.mem _ _ hu

theorem resolve (cl va : Nat) (w : Bool) {s : State} (h : P s) : P (s.resolve cl va w).1 := by
  unfold State.resolve
  split
  · exact h
  · split
    · split <;> exact h
    · split
      · rename_i t e; have := c.walk cl va h; rw [e] at this; exact this
      · rename_i t e2 e; have := c.walk cl va h; rw [e] at this; exact this

theorem xlatFault {cl : Nat} (hc : C cl) (va : Nat) {s : State} (h : P s) : P (s.xlatFault cl va) :=
  c.inc _ (.inr ⟨cl, hc, .inr rfl⟩)
    (c.set _ _ _ (.inr ⟨cl, hc, .inl rfl⟩) h)

theorem rd {cl : Nat} (hc : C cl) (va n : Nat) {s : State} (h : P s) : P (s.rd cl va n).1 := by
  unfold State.rd
  refine foldl_ind (fun x : State × List Byte × Option MemFault => P x.1) _ ?_ _ _ h
  rintro ⟨t, out, f⟩ ch ht
  dsimp only at *
  split
  · exact ht
  · split
    · rename_i u e; have := c.resolve cl (va + ch.1) false ht; rw [e] at this; exact c.xlatFault hc _ this
    · rename_i u p b e; have := c.resolve cl (va + ch.1) false ht; rw [e] at this; exact c.rdChunk _ _ _ this

theorem rdThrough {cl : Nat} (hc : C cl) (va n : Nat) {s : State} (h : P s) : P (s.rdThrough cl va n).1 := by
  unfold State.rdThrough
  refine foldl_ind (fun x : State × List Byte × Option MemFault => P x.1) _ ?_ _ _ h
  rintro ⟨t, out, f⟩ ch ht
  dsimp only at *
  split
  · rename_i u e; have := c.resolve cl (va + ch.1) false ht; rw [e] at this; exact c.xlatFault hc _ this
  · rename_i u p b e; have := c.resolve cl (va + ch.1) false ht; rw [e] at this; exact c.rdChunk _ _ _ this

theorem wrClear {cl : Nat} (hc : C cl) (va : Nat) (l : List Byte) (k : Option Byte) {s : State} (h : P s) : P (s.wrClear cl va l k).1 := by
  unfold State.wrClear
  refine foldl_ind (fun x : State × Option MemFault => P x.1) _ ?_ _ _ h
  rintro ⟨t, f⟩ ch ht
  dsimp only at *
  split
  · exact ht
  · split
    · rename_i u e; have := c.resolve cl (va + ch.1) true ht; rw [e] at this; exact c.xlatFault hc _ this
    · rename_i u p b e; have := c.resolve cl (va + ch.1) true ht; rw [e] at this; exact c.wrChunk _ _ _ _ this

theorem wr {cl : Nat} (hc : C cl) (va : Nat) (l : List Byte) {s : State} (h : P s) : P (s.wr cl va l).1 := c.wrClear hc _ _ _ h

theorem probe (cl va n : Nat) (w : Bool) {s : State} (h : P s) : P (s.probe cl va n w).1 := by
  unfold State.probe
  split
  · exact h
  · refine foldl_ind (fun x : State × Option Nat × List Bool => P x.1) _ ?_ _ _ h
    rintro ⟨t, f, cs⟩ pg ht
    dsimp only at *
    split
    · exact ht
    · split
      · rename_i u e; have := c.resolve cl (max va (pg * 2 ^ 16)) w ht; rw [e] at this; exact this
      · rename_i u p b e; have := c.resolve cl (max va (pg * 2 ^ 16)) w ht; rw [e] at this; exact this

theorem rdPart (p o n : Nat) {s : State} (h : P s) : P (s.rdPart p o n).1 := by
  unfold State.rdPart
  refine foldl_ind (fun x : State × List Byte => P x.1) _ ?_ _ _ h
  rintro ⟨t, out⟩ ch ht
  exact c.rdChunk (t.partPhys p (o + ch.1)) false ch.2 ht

theorem wrPart (p o : Nat) (l : List Byte) {s : State} (h : P s) : P (s.wrPart p o l) :=
  foldl_ind P _ (fun _ _ ht => c.wrChunk _ _ _ _ ht) _ _ h

end MemClosed

/-! ## What every memory operation leaves alone -/

/-- The jobs, queues, flags and the scheduler. -/
theorem memClosed_qs {C : Nat → Prop} (q : QueueSt) : MemClosed C (fun t => t.qs = q) :=
  ⟨fun _ _ _ _ h => h, fun _ _ h => h, fun _ _ _ _ h => h, fun _ h => h⟩

/-- Every object that it does not write; so every object below index 0x9000. -/
theorem memClosed_get {C : Nat → Prop} (k v : Nat) (hk : ¬ MemKey C k) : MemClosed C (fun t => t.get k = v) :=
  ⟨fun t j x hj h => (t.get_set_other x (fun e => hk (by rw [e]; exact hj))).trans h, fun _ _ h => h, fun _ _ _ _ h => h, fun _ h => h⟩

theorem memClosed_boot {C : Nat → Prop} (b : BootSt) : MemClosed C (fun t => t.boot = b) :=
  ⟨fun _ _ _ _ h => h, fun _ _ h => h, fun _ _ _ _ h => h, fun _ h => h⟩

theorem memClosed_tick {C : Nat → Prop} (b : TickSt) : MemClosed C (fun t => t.tick = b) :=
  ⟨fun _ _ _ _ h => h, fun _ _ h => h, fun _ _ _ _ h => h, fun _ h => h⟩

theorem memClosed_sched {C : Nat → Prop} (b : SchedSt) : MemClosed C (fun t => t.sched = b) :=
  ⟨fun _ _ _ _ h => h, fun _ _ h => h, fun _ _ _ _ h => h, fun _ h => h⟩

theorem State.rd_qs (s : State) (cl va n : Nat) : (s.rd cl va n).1.qs = s.qs := (memClosed_qs (C := fun _ => True) s.qs).rd trivial va n rfl

theorem State.wr_qs (s : State) (cl va : Nat) (l : List Byte) : (s.wr cl va l).1.qs = s.qs := (memClosed_qs (C := fun _ => True) s.qs).wr trivial va l rfl

end Sys2Proof.Machine
end

