-- ==== Sys2Proof/Laws/Writes.lean ====
section
/-! SUPPORT. An admitted write of an object, said once: what it does is its object's own rule, then the answer, then what
follows the answer. -/

namespace Sys2Proof.Machine

/-- Every write command is its object's write. -/
theorem exec_objectWrite {i : Instr} {dt k : Nat} {w : WReq} (h : i.objectWrite = some (dt, k, w)) (s : State) :
    exec i s = .next ((s.advance dt).objWrite k w) := by
  cases i <;> simp only [Instr.objectWrite, Option.some.injEq, Prod.mk.injEq, reduceCtorEq] at h <;>
    (obtain ⟨rfl, rfl, rfl⟩ := h; rfl)

/-- An executed request counts on the field network alone. -/
theorem State.countBap_ok (s : State) (via : Path) :
    s.countBap via Ab.OK = match via with
      | .bap _ _ _ => s.inc Od.BAP_RX_OK
      | _ => s := by
  cases via <;> rfl

theorem State.pathUp_out (s : State) (o : List Out) (via : Path) : ({ s with out := o } : State).pathUp via = s.pathUp via := by
  cases via <;> rfl

theorem State.domCode_out (s : State) (o : List Out) (d : Nat) : ({ s with out := o } : State).domCode d = s.domCode d := rfl

theorem State.locate_out (s : State) (o : List Out) (via : Path) (i j : Nat) (a b : Bool) :
    ({ s with out := o } : State).locate via i j a b = s.locate via i j a b := by
  unfold State.locate
  cases lookup i j with
  | error c => rfl
  | ok r => rfl

/-- The row that an admitted write is checked against. -/
theorem State.locate_ok {s : State} {via : Path} {i j : Nat} {a b : Bool} {r : Row} (h : s.locate via i j a b = .ok r) :
    lookup i j = .ok r := by
  unfold State.locate at h
  split at h
  · cases h
  · rename_i x hx
    split at h
    · cases h
    · split at h
      · cases h
      · exact hx.trans (by simpa using h)

/-- An admitted write does what its object's rule says, is answered, and then what follows the answer happens. -/
theorem State.objWrite_admitted {s : State} {w : WReq} {k : Nat} {r : Row} (h : s.admits w k)
    (hr : lookup (k / 256) (k % 256) = .ok r) :
    s.objWrite k w =
      let e := ({ s with out := [] } : State).writeEffect w.via k (r.rng.filter w.val)
      let t := ((if e.code == Ab.OK then e.st.markWritten r k else e.st).countBap w.via e.code)
      ({ t with out := t.out ++ (Out.answer w.via k e.code e.handle :: s.out) } : State).afterWrite k w.val e.code := by
  obtain ⟨hp, hc, hg, hl⟩ := h
  rw [hr] at hl
  have hk : k / 256 * 256 + k % 256 = k := by omega
  unfold State.writeCode at hc
  unfold State.objWrite State.dictWrite
  rw [State.locate_out]
  split at hc
  · rename_i c hloc
    exfalso
    unfold State.locate at hloc
    rw [hr] at hloc
    dsimp only at hloc
    split at hloc
    · cases hloc; revert hc; decide
    · split at hloc
      · rename_i hd; cases hloc; simp [hc] at hd
      · cases hloc
  · rename_i x hloc
    have hx : x = r := by have := (State.locate_ok hloc).symm.trans hr; simpa using this
    subst hx
    rw [hk] at hc
    have hv : ({ s with out := [] } : State).valueCode x k w.ty w.size w.val = Ab.OK := hc
    have hlk : ({ s with out := [] } : State).locked x k = false := hl
    have hcm : (isCommand k && ({ s with out := [] } : State).commandsHeld) = false := hg
    have hp' : (!s.pathUp w.via) = false := by simp [hp]
    simp only [hp', hk, hv, hlk, hcm, State.writeRow, bne_self_eq_false, Bool.false_eq_true, if_false]
    split <;> simp_all

end Sys2Proof.Machine
end

