-- ==== Sys2Proof/WellFormed.lean ====
section
/-! DEFINITION. Which commands the outside can send: the operand checks that the types of Syntax.lean do not make. -/

namespace Sys2Proof

/-- Size in bytes of a value of a type code (R24); none for STR and DOM, which no value write carries. -/
def typeBytes (ty : Nat) : Option Nat :=
  if ty == 1 || ty == 2 then some 1 else if ty == 3 then some 2 else if ty == 4 || ty == 6 || ty == 7 then some 4
  else if ty == 5 then some 8 else none

/-- A write presents a type code of R24, and a value that its size holds. -/
def WReq.wf (w : WReq) : Bool := (1 ≤ w.ty && w.ty ≤ 9) && w.size ≤ 240 && w.val < 2 ^ (8 * w.size) &&
  (match w.via with
   | .bap node mac _ => node < 256 && mac < 2 ^ 48
   | .pcie _ => true
   | .fw => true)

/-- A frame has MAC addresses of 48 bits and the 46 to 1,500 bytes that Ethernet carries after the EtherType (R33). -/
def BapFrame.wf (f : BapFrame) : Bool :=
  f.dstMac < 2 ^ 48 && f.srcMac < 2 ^ 48 && 46 ≤ f.bytes.length && f.bytes.length ≤ 1500

/-- The opcode that a frame carries (R33). -/
def BapFrame.opcode (f : BapFrame) : Nat := ((f.bytes.drop 1).headD 0).toNat

/-- An aligned 32- or 64-bit access inside BAR0 (R45, R137). -/
def barOffsetOk (off : Nat) (wide : Bool) : Bool :=
  off % (if wide then 8 else 4) == 0 && off < 0x200000

/-- The access block's registers hold what they are wide enough for (R45). -/
def daOk (addr ty offset len : Nat) : Bool :=
  addr < 2 ^ 24 && ty < 16 && offset < 2 ^ 32 && len < 2 ^ 32

/-- A Leat packet is a 32-byte header, at most 256 bytes of payload and an 8-byte trailer (R333). -/
def packetOk (pkt : List Byte) : Bool := 40 ≤ pkt.length && pkt.length ≤ 296

/-- A boundary capture fits the 230 cells, and no register shifts more than 230 bits (R371, R373). -/
def TapIn.wf (t : TapIn) : Bool := t.shiftIn < 2 ^ 230 && t.balls < 2 ^ 230

/-- The command can arrive: every operand lies in the range its interface allows. -/
def Instr.wf : Instr → Bool
  | .tickInEdge _ high _ => 40 ≤ high
  | .read _ f => f.wf && f.opcode == 0x01
  | .write _ f => f.wf && f.opcode == 0x02
  | .blockWrite _ f => f.wf && f.opcode == 0x03
  | .blockRead _ f => f.wf && f.opcode == 0x04
  | .sessionOpen _ f => f.wf && f.opcode == 0x20
  | .sessionClose _ f => f.wf && f.opcode == 0x21
  | .discover _ f => f.wf && f.opcode == 0x30
  | .discoverDelayExpiry _ node => node < 256
  | .sessionIdleExpiry _ node => node < 256
  | .blockTransferTimeout _ idx sub => idx < 2 ^ 16 && sub < 256
  | .daRead _ _ addr ty offset len => daOk addr ty offset len
  | .daWrite _ _ addr ty lo hi offset len buf =>
    daOk addr ty offset len && lo < 2 ^ 32 && hi < 2 ^ 32 && buf.length ≤ 4096
  | .directPageWrite _ _ off wide val => barOffsetOk off wide && val < 2 ^ (if wide then 64 else 32)
  | .directPageRead _ _ off wide => barOffsetOk off wide
  | .dictWrite _ idx sub w => idx < 2 ^ 16 && sub < 256 && w.wf
  | .underrun _ _ x y count => x < 8192 && y < 8192 && count < 2 ^ 26
  | .bootRomStart _ nor => (nor.getD []).length ≤ 0x1000000
  | .data _ _ pkt => packetOk pkt
  | .doorbellPacket _ _ pkt => packetOk pkt
  | .tickPacket _ _ pkt => packetOk pkt
  | .seam _ _ pkt => packetOk pkt
  | .readReq _ _ pkt => packetOk pkt
  | .readData _ _ pkt => packetOk pkt
  | .done _ _ pkt => packetOk pkt
  | .discoverPacket _ _ pkt => packetOk pkt
  | .discoverReply _ _ pkt => packetOk pkt
  | .config _ _ pkt => packetOk pkt
  | .internalTick _ => true
  | .substitutedTick _ => true
  | .bucketStart _ => true
  | .tickOutFall _ => true
  | .tickEnWrite _ w => w.wf
  | .tickSrcWrite _ w => w.wf
  | .genPeriodNsWrite _ w => w.wf
  | .nodeIdWrite _ w => w.wf
  | .release _ _ w => w.wf
  | .store _ w => w.wf
  | .erase _ w => w.wf
  | .longOperationDone _ _ _ => true
  | .porstNFall _ => true
  | .porstNRise _ _ => true
  | .supplyLoss _ => true
  | .wrstNFall _ => true
  | .wrstNRise _ => true
  | .warmReset _ w => w.wf
  | .imageVerifyDone _ => true
  | .fwLoad _ w => w.wf
  | .gpioStrapApply _ => true
  | .pdReqWrite _ _ w => w.wf
  | .drainEnd _ _ => true
  | .domainOff _ _ => true
  | .domainOpenEnd _ _ => true
  | .leatPacketRetry _ => true
  | .pllReqMhzWrite _ _ w => w.wf
  | .pllChangeStart _ _ => true
  | .pllChangeEnd _ _ => true
  | .engineReset _ w => w.wf
  | .clientReset _ w => w.wf
  | .functionLevelReset _ _ => true
  | .memRateReqWrite _ w => w.wf
  | .memTrain _ w => w.wf
  | .xlatRootWrite _ _ w => w.wf
  | .xlatEnWrite _ _ w => w.wf
  | .xlatInval _ _ w => w.wf
  | .repartition _ w => w.wf
  | .repartitionApply _ => true
  | .bankRetentionEntry _ _ => true
  | .refillStart _ _ => true
  | .selfRefreshEntry _ => true
  | .selfRefreshExit _ => true
  | .qEnableWrite _ _ w => w.wf
  | .doorbell _ _ _ _ => true
  | .jobQuery _ _ _ => true
  | .jobStart _ _ => true
  | .jobComplete _ _ => true
  | .heldRecordWrite _ _ => true
  | .clCrHeadWrite _ _ w => w.wf
  | .clCrEnWrite _ _ w => w.wf
  | .flagWrite _ _ _ _ _ _ => true
  | .nop _ _ => true
  | .indirect _ _ => true
  | .copy _ _ _ => true
  | .copy2d _ _ _ => true
  | .fill _ _ _ => true
  | .ingestPut _ _ _ => true
  | .isEnWrite _ _ w => w.wf
  | .frameStartPacket _ _ _ => true
  | .longPacket _ _ _ _ _ => true
  | .frameEndPacket _ _ _ => true
  | .wheelLoad _ w => w.wf
  | .wheelCheckDone _ => true
  | .wheelUnload _ w => w.wf
  -- R185: what a neural quarter holds
  | .preemptionPoint _ u acc staging => match u with
    | .nq _ => acc ≤ 0x10000 && staging ≤ 0x40000
    | _ => true
  | .contextSwitchDone _ _ => true
  | .runNet _ _ _ => true
  | .runDibber _ _ _ => true
  | .svEnableWrite _ _ w => w.wf
  | .servingStep _ _ _ => true
  | .loadKernel _ _ => true
  | .unloadKernel _ _ => true
  | .kernelSlotEmptied _ _ _ => true
  | .renderPass _ _ _ => true
  | .binStoreAcquire _ _ _ => true
  | .dispatch _ _ _ => true
  | .vxDetect _ _ => true
  | .vxTrack _ _ => true
  | .vxMatch _ _ => true
  | .visionUnitEnd _ _ => true
  | .slvUpload _ _ _ => true
  | .slvSolveBa _ _ _ => true
  | .slvDense _ _ _ => true
  | .solveDeadline _ _ => true
  | .stClear _ _ w => w.wf
  | .frameStart _ _ _ => true
  | .bandStart _ p => p.moved.length ≤ 2
  | .bandComplete _ _ => true
  | .bandDeadline _ p => p.moved.length ≤ 2
  | .pipeIfWrite _ _ w => w.wf
  | .linkTrain _ _ w => w.wf
  | .pipeEnWrite _ _ w => w.wf
  | .hpdLow _ _ => true
  | .hpdPulse _ _ => true
  | .present _ _ => true
  | .linkXfer _ _ _ => true
  | .palette _ _ => true
  | .frameScanEnd _ _ => true
  | .outchkCompare _ _ _ => true
  | .leatLinkUp _ _ _ => true
  | .leatLinkDown _ _ => true
  | .leatSend _ _ => true
  | .seamSend _ _ => true
  | .leatFetch _ _ => true
  | .casForm _ w => w.wf
  | .formationCheck _ => true
  | .casDissolve _ w => w.wf
  | .tickPacketTimeout _ => true
  | .seamDeadline _ _ => true
  | .govKey _ w => w.wf
  | .governorExpiry _ => true
  | .scareKey _ w => w.wf
  | .scareDisable _ w => w.wf
  | .scareLock _ w => w.wf
  | .scarecrowExpiry _ => true
  | .selftest _ w => w.wf
  | .tapReset _ t => t.wf
  | .extest _ t => t.wf
  | .samplePreload _ t => t.wf
  | .idcode _ t => t.wf
  | .clamp _ t => t.wf
  | .highz _ t => t.wf
  | .extestPulse _ t => t.wf
  | .extestTrain _ t => t.wf
  | .strapRead _ t => t.wf
  | .bandCrc _ t => t.wf
  | .outchkLoop _ t => t.wf
  | .bypass _ t => t.wf
  | .suppliesGood _ => true
  | .perstNRelease _ => true
  | .csiLaneError _ _ _ => true
  | .plcaBeaconLoss _ => true

end Sys2Proof
end

