-- ==== Sys2Proof/Tests/Slice0.lean ====
section
/-! SUPPORT. The model's own tests: ill-formed commands, worked cases of the spec, and for each statement with hypotheses a
concrete state and operands that meet them (`test_meets_<statement>`), clause by clause. -/

namespace Sys2Proof.Tests

open Sys2Proof Sys2Proof.Machine

set_option Elab.async false

/-! ## Helpers -/

/-- The state after a command; the reset state where it stops. -/
def after : Res → State
  | .next s => s
  | _ => State.reset

/-- The device running its firmware, every domain ON and the PCI Express link up. -/
def up : State :=
  ({ State.reset with boot := { Reset.boot with phase := .running, porst := true, pcieUp := true, everRan := true } } : State).sets
    ((Od.BOOT_STATE, 3) :: (List.range 11).map (fun d => (Od.PD_STATE d, 2)))

/-- `up` with some objects set. -/
def upWith (l : List (Nat × Nat)) : State := up.sets l

/-- A write by client 0 over PCI Express. -/
def pw (ty size val : Nat) : WReq := ⟨.pcie 0, ty, size, val⟩

/-- `admits` as a computation. -/
def admitsB (s : State) (w : WReq) (k : Nat) : Bool :=
  s.pathUp w.via && s.writeCode w.via (k / 256) (k % 256) w.ty w.size w.val == Ab.OK && !(isCommand k && s.commandsHeld) &&
  match lookup (k / 256) (k % 256) with
  | .ok r => !s.locked r k
  | .error _ => false

theorem admits_of {s : State} {w : WReq} {k : Nat} (h : admitsB s w k = true) : s.admits w k := by
  unfold admitsB at h
  unfold State.admits
  cases hl : lookup (k / 256) (k % 256) with
  | error c => simp [hl] at h
  | ok r =>
    simp only [hl, Bool.and_eq_true, beq_iff_eq, Bool.not_eq_true'] at h
    exact ⟨h.1.1.1, h.1.1.2, h.1.2, h.2⟩

/-- Fields put into `n` zero bytes: offset, size, value. -/
def put (n : Nat) (l : List (Nat × Nat × Nat)) : List Byte :=
  l.foldl (fun b e => b.take e.1 ++ toLe e.2.1 e.2.2 ++ b.drop (e.1 + e.2.1)) (zeroBytes n)

/-- A slot of best-effort work: its opcode and the fields of its payload. -/
def slot (op : Nat) (l : List (Nat × Nat × Nat)) : List Byte := put 64 ((0, 1, op) :: (6, 2, 0xFFFF) :: l)

/-- A started job of client 0 on a unit. -/
def job (q : Fin 128) (u : SchedUnit) (b : List Byte) : Job :=
  { id := ⟨q, 0⟩, handle := 2 ^ 26 + q.val * 2 ^ 19, owner := 0, slot := b, checked := true, phase := .started, inList := false,
    taken := 0, done := 0, desc := [], live := (0, 0), status := 0, flags := 0, detail := [], window := none, unit := some u, context := .live, startAt := 0,
    startTick := 0, cycles := 0, blocked := false, poisons := [], epoch := none, deadline := none }

/-- A state with these jobs. -/
def jobs (s : State) (l : List Job) : State := { s with qs := { s.qs with jobs := l } }

/-! ## Ill-formed commands are refused -/

def longFrame : BapFrame := { dstMac := 2, srcMac := 4, bytes := zeroBytes 1501 }
def readFrame : BapFrame := { dstMac := 2, srcMac := 4, bytes := put 46 [(0, 1, 0x10), (1, 1, 0x01)] }
def badWrite : WReq := { via := .fw, ty := 2, size := 1, val := 256 }

theorem test_wf_tickInEdge : Instr.wf (.tickInEdge 0 39 0) = false ∧ Instr.wf (.tickInEdge 0 40 0) = true := by decide
theorem test_wf_frame_length : Instr.wf (.read 0 longFrame) = false ∧ Instr.wf (.read 0 readFrame) = true := by decide +kernel
theorem test_wf_frame_mac : Instr.wf (.read 0 { readFrame with srcMac := 2 ^ 48 }) = false ∧
    Instr.wf (.read 0 { readFrame with dstMac := 2 ^ 48 }) = false := by decide +kernel
theorem test_wf_frame_opcode : Instr.wf (.write 0 readFrame) = false ∧ Instr.wf (.blockWrite 0 readFrame) = false ∧
    Instr.wf (.blockRead 0 readFrame) = false ∧ Instr.wf (.sessionOpen 0 readFrame) = false ∧
    Instr.wf (.sessionClose 0 readFrame) = false ∧ Instr.wf (.discover 0 readFrame) = false ∧
    Instr.wf (.read 0 { readFrame with bytes := put 46 [(1, 1, 2)] }) = false := by decide +kernel
theorem test_wf_node : Instr.wf (.discoverDelayExpiry 0 256) = false ∧ Instr.wf (.sessionIdleExpiry 0 256) = false := by decide
theorem test_wf_transfer : Instr.wf (.blockTransferTimeout 0 0x10000 0) = false ∧
    Instr.wf (.blockTransferTimeout 0 0 256) = false := by decide
theorem test_wf_access_block : Instr.wf (.daRead 0 0 0x1000000 1 0 0) = false ∧ Instr.wf (.daRead 0 0 0 16 0 0) = false ∧
    Instr.wf (.daWrite 0 0 0 1 (2 ^ 32) 0 0 0 []) = false ∧ Instr.wf (.daWrite 0 0 0 1 0 0 0 0 (zeroBytes 4097)) = false := by
  decide +kernel
theorem test_wf_bar : Instr.wf (.directPageWrite 0 0 2 false 0) = false ∧ Instr.wf (.directPageRead 0 0 4 true) = false ∧
    Instr.wf (.directPageWrite 0 0 0 false (2 ^ 32)) = false := by decide
theorem test_wf_dict : Instr.wf (.dictWrite 0 0x10000 0 badWrite) = false ∧ Instr.wf (.dictWrite 0 0 0 badWrite) = false := by decide
theorem test_wf_write : Instr.wf (.store 0 badWrite) = false ∧ Instr.wf (.store 0 { badWrite with val := 255 }) = true ∧
    Instr.wf (.store 0 { badWrite with ty := 0, val := 0 }) = false ∧
    Instr.wf (.store 0 { badWrite with size := 241, val := 0 }) = false ∧
    Instr.wf (.store 0 { badWrite with via := .bap 256 0 true, val := 0 }) = false := by decide
theorem test_wf_underrun : Instr.wf (.underrun 0 0 8192 0 1) = false ∧ Instr.wf (.underrun 0 0 0 8192 1) = false := by decide
theorem test_wf_boot (l : List Byte) (h : l.length = 0x1000001) : Instr.wf (.bootRomStart 0 (some l)) = false := by
  simp [Instr.wf, h]
theorem test_wf_packet : Instr.wf (.data 0 0 (zeroBytes 39)) = false ∧ Instr.wf (.done 0 0 (zeroBytes 297)) = false ∧
    Instr.wf (.seam 0 0 (zeroBytes 40)) = true := by decide +kernel
theorem test_wf_tap : Instr.wf (.extest 0 ⟨2 ^ 230, 0, ⟨0, 0, true, true⟩⟩) = false ∧
    Instr.wf (.bypass 0 ⟨0, 2 ^ 230, ⟨0, 0, true, true⟩⟩) = false := by decide

/-! ## Worked cases of the spec -/

/-- R56: slot 5 whose generation is 0x0011 gives the handle 0x0000_1105. -/
theorem test_handle_worked_case : dictHandle 0x0011 5 = 0x00001105 := by decide

/-- R371: the identification of the part. -/
theorem test_idcode : (after (exec (.idcode 0 ⟨0, 0, ⟨0, 0, true, true⟩⟩) State.reset)).out = [.tdo 32 0x10740ABD, .tdo 5 1] := by decide +kernel

/-- R156: with 0x0000_0002 a wait for 0xFFFF_FFFF is satisfied; with 0xFFFF_FFFE a wait for 0x0000_0001 is not. -/
theorem test_wait_wraps :
    (up.setFlag false 10 0x00000002).waitOn false 10 0xFFFFFFFF = .satisfied ∧
    (up.setFlag false 10 0xFFFFFFFE).waitOn false 10 0x00000001 = .waiting := by decide +kernel

/-- R59: a second write of 1 to the Scarecrow lock answers OK; a write of 0 answers LOCKED and is counted. -/
theorem test_lock_worked_case :
    let s := after (exec (.scareLock 0 ⟨.fw, 1, 1, 1⟩) up)
    (after (exec (.scareLock 0 ⟨.fw, 1, 1, 1⟩) s)).out.head? = some (.answer .fw Od.SCARE_LOCK Ab.OK 0) ∧
    (after (exec (.scareLock 0 ⟨.fw, 1, 1, 0⟩) s)).out.head? = some (.answer .fw Od.SCARE_LOCK Ab.LOCKED 0) ∧
    (after (exec (.scareLock 0 ⟨.fw, 1, 1, 0⟩) s)).get Od.LOCK_VIOL = 1 := by decide +kernel

/-- R15: the counter reads 0 at the first tick and counts from the second on; R17: 2.4 ms later an edge is a runt. -/
theorem test_tick_count :
    let s := { upWith [(Od.TICK_EN, 1)] with tick := { Reset.tick with src := 1 } }
    let a := after (exec (.tickInEdge 2500060 40 60) s)
    let b := after (exec (.tickInEdge 2500000 40 60) a)
    let c := after (exec (.tickInEdge 2400000 40 60) b)
    a.get Od.TICK_COUNT = 0 ∧ b.get Od.TICK_COUNT = 1 ∧ c.get Od.TICK_COUNT = 1 ∧ c.get Od.RUNT_COUNT = 1 := by decide +kernel

/-- R158: FILL repeats its pattern from the first byte. -/
theorem test_fill_pattern :
    let s := jobs up [job 96 .copy (slot 0x12 [(24, 8, 0x100), (32, 4, 5), (36, 4, 0x44332211)])]
    let t := after (exec (.fill 0 ⟨96, 0⟩ ⟨none, []⟩) s)
    t.mem.dram = [(0x100, 0x11), (0x101, 0x22), (0x102, 0x33), (0x103, 0x44), (0x104, 0x11)] := by decide +kernel

/-- R39: a BLOCK_READ past the end returns no data, and a COUNT that runs past the end is shortened. -/
theorem test_block_read_shortens :
    slice [1, 2, 3] 3 9 = ([] : List Byte) ∧ slice [1, 2, 3] 1 9 = ([2, 3] : List Byte) := by decide

/-- R314: the 8-bit link of 1,080 lines at 148,500 kHz needs 3,564,000 kb/s. -/
theorem test_link_need : (upWith [(Od.PCLK_KHZ 0, 148500), (Od.BPC 0, 8)]).needKbs 0 = 3564000 := by decide +kernel

/-- R225: the transform matrices of the two tile sides give the convolution exactly. -/
theorem test_winograd_exact : (Wino.std 2).exact = true ∧ (Wino.std 4).exact = true := by decide +kernel

/-- R265: exponential and logarithm at powers of two, and the sine of 1.0 to nine places. -/
theorem test_shader_functions :
    exp2Of 3 = (8, true) ∧ exp2Of (-2) = (mkRat 1 4, true) ∧ log2Of 8 1 = (3, true) ∧
    mkRat 841470984 (10 ^ 9) < (trigOf false false 0x3F800000).1 ∧ (trigOf false false 0x3F800000).1 < mkRat 841470985 (10 ^ 9) := by
  decide +kernel

/-- R265, R196: a NaN operand gives the canonical NaN; 1 ÷ 0 raises DZ. -/
theorem test_shader_exact :
    (fpRun false .add [0x7FC00001, 0x3F800000] 0).1 = 0x7FC00000 ∧ fpRun false .div [0x3F800000, 0] 0 = (0x7F800000, Nf.DZ) := by
  decide +kernel

/-! ## The queue, rest and reset -/

theorem test_meets_StepTakesTheFrontCommand :
    ({ up with pending := [.internalTick 0] } : State).pending = [.internalTick 0] ∧ up.pending = [] := by decide +kernel

theorem test_meets_RestIsKept :
    let s : State := { State.reset with pending := [.suppliesGood 0] }
    s.atRest [] ∧ (∀ c ∈ s.pending, c.wakes = false) ∧ ∃ t, step s = .next t := by
  refine ⟨?_, by decide, _, rfl⟩
  unfold State.atRest
  decide +kernel

/-! ## Writes of objects -/

theorem test_meets_RefusedAndLockedWritesChangeNothing :
    Instr.objectWrite (.tickSrcWrite 0 (pw 2 1 3)) = some (0, Od.TICK_SRC, pw 2 1 3) ∧
    (up.advance 0).pathUp (pw 2 1 3).via = true ∧ (up.advance 0).writeCode (.pcie 0) 0x2100 1 2 1 3 = Ab.RANGE ∧
    Ab.RANGE ≠ Ab.OK := by decide +kernel

theorem test_meets_RefusedAndLockedWritesChangeNothing_locked :
    let s : State := { upWith [(Od.SCARE_LOCK, 1), (Od.CFG_LOCK, 1)] with written := [Od.SCARE_LOCK, Od.CFG_LOCK] }
    Instr.objectWrite (.scareLock 0 (pw 1 1 0)) = some (0, Od.SCARE_LOCK, pw 1 1 0) ∧ s.written.contains Od.SCARE_LOCK = true ∧
    (s.advance 0).writeCode (.pcie 0) (Od.SCARE_LOCK / 256) (Od.SCARE_LOCK % 256) 1 1 0 = Ab.OK ∧
    s.get Od.SCARE_LOCK ≠ (pw 1 1 0).val ∧ s.get Od.SCARE_LOCK = (pw 1 1 1).val ∧
    Instr.objectWrite (.dictWrite 0 (Od.CFG_LOCK / 256) (Od.CFG_LOCK % 256) (pw 1 1 0)) = some (0, Od.CFG_LOCK, pw 1 1 0) ∧
    (s.advance 0).writeCode (.pcie 0) (Od.CFG_LOCK / 256) (Od.CFG_LOCK % 256) 1 1 0 = Ab.OK ∧
    s.written.contains Od.CFG_LOCK = true := by decide +kernel

theorem test_meets_ObjectWritesHoldTheValue :
    (up.advance 0).admits (pw 2 1 9) (0x1100 * 256 + 6) ∧ (∃ r, lookup 0x1100 6 = .ok r) ∧
    0x1100 * 256 + 6 ≠ Od.NODE_ID ∧ 0x1100 * 256 + 6 ≠ Od.WARM_RESET ∧
    (∀ (u : State) (v : Nat), u.writeEffect (.pcie 0) (0x1100 * 256 + 6) v = .ok (u.set (0x1100 * 256 + 6) v)) :=
  ⟨admits_of (by decide +kernel), ⟨_, rfl⟩, by decide, by decide, fun _ _ => rfl⟩

theorem test_meets_ObjectWritesHoldTheValue_node : (up.advance 0).admits (pw 2 1 0xFE) Od.NODE_ID := admits_of (by decide +kernel)

theorem test_meets_ObjectWritesHoldTheValue_release :
    (up.advance 0).admits (pw 4 4 255) (Od.RELEASE 255) ∧ (255 : Nat) / 2 ^ 24 = 0 ∧ 255 % 256 = 255 ∧
    255 / 256 % 2 ^ 16 = up.gen 255 ∧ up.get (Od.STATE 255) ≠ 1 := ⟨admits_of (by decide +kernel), by decide +kernel⟩

/-- The commands of a running device with ticks stopped: every one may start its operation. -/
def ready : State := upWith [(Od.SELFTEST_SEL, 7)]

theorem test_meets_OperationAndPowerWritesComplete_store :
    Instr.objectWrite (.store 0 (pw 3 2 23166)) = some (0, Od.STORE, pw 3 2 23166) ∧ (ready.advance 0).admits (pw 3 2 23166) Od.STORE ∧
    Instr.objectWrite (.erase 0 (pw 3 2 3567)) = some (0, Od.ERASE, pw 3 2 3567) ∧ (ready.advance 0).admits (pw 3 2 3567) Od.ERASE ∧
    ready.pickSlot = some 0 ∧ ready.opRunning .store = false ∧ ready.opRunning .erase = false :=
  ⟨rfl, admits_of (by decide +kernel), rfl, admits_of (by decide +kernel), by decide +kernel⟩

theorem test_meets_OperationAndPowerWritesComplete_load :
    Instr.objectWrite (.fwLoad 0 (pw 3 2 4269)) = some (0, Od.FW_LOAD, pw 3 2 4269) ∧ (ready.advance 0).admits (pw 3 2 4269) Od.FW_LOAD ∧
    ready.opRunning .fwLoad = false ∧ ready.on Od.TICK_EN = false ∧ ready.get Od.BOOT_STATE = 3 ∧
    Instr.objectWrite (.wheelLoad 0 (pw 3 2 15889)) = some (0, Od.WHEEL_LOAD, pw 3 2 15889) ∧
    (ready.advance 0).admits (pw 3 2 15889) Od.WHEEL_LOAD ∧ ready.opRunning .wheelLoad = false :=
  ⟨rfl, admits_of (by decide +kernel), by decide +kernel, by decide +kernel, by decide +kernel, rfl, admits_of (by decide +kernel),
    by decide +kernel⟩

theorem test_meets_OperationAndPowerWritesComplete_memory :
    Instr.objectWrite (.memTrain 0 (pw 3 2 28961)) = some (0, Od.MEM_TRAIN, pw 3 2 28961) ∧
    (ready.advance 0).admits (pw 3 2 28961) Od.MEM_TRAIN ∧ ready.opRunning .memTrain = false ∧ ready.selftesting = false ∧
    ready.jobRunning = false ∧
    Instr.objectWrite (.repartition 0 (pw 3 2 22807)) = some (0, Od.REPARTITION, pw 3 2 22807) ∧
    (ready.advance 0).admits (pw 3 2 22807) Od.REPARTITION ∧ ready.opRunning .repartition = false ∧ ready.wheel.table = none ∧
    ((List.range 4).any ready.pipeOn && ready.bandChanges) = false ∧ partsOk ((List.range 16).map ready.stagedPart) = true :=
  ⟨rfl, admits_of (by decide +kernel), by decide +kernel, by decide +kernel, by decide +kernel, rfl, admits_of (by decide +kernel),
    by decide +kernel⟩

/-- A pipe of 1280 × 720 pixels on DSI, as a panel of the spec's size asks. -/
def timed (p : Nat) : List (Nat × Nat) :=
  [(Od.PIPE_IF p, 1), (Od.H_ACTIVE p, 1280), (Od.H_FP p, 48), (Od.H_SYNC p, 32), (Od.H_BP p, 80), (Od.V_ACTIVE p, 720),
   (Od.V_FP p, 3), (Od.V_SYNC p, 5), (Od.V_BP p, 32), (Od.PCLK_KHZ p, 66000)]

theorem test_meets_OperationAndPowerWritesComplete_links :
    let s := upWith ((Od.TICK_EN, 1) :: timed 3)
    Instr.objectWrite (.linkTrain 0 3 (pw 3 2 29089)) = some (0, Od.LINK_TRAIN 3, pw 3 2 29089) ∧
    (s.advance 0).admits (pw 3 2 29089) (Od.LINK_TRAIN 3) ∧ s.opRunning (.linkTrain 3) = false ∧ s.trainOk 3 = true ∧
    Instr.objectWrite (.casForm 0 (pw 3 2 27228)) = some (0, Od.CAS_FORM, pw 3 2 27228) ∧
    (s.advance 0).admits (pw 3 2 27228) Od.CAS_FORM ∧ s.on Od.CAS_ROLE = false ∧ s.on Od.TICK_EN = true ∧
    s.domOn 10 = true ∧ s.get Od.CAS_STATE = 0 :=
  ⟨rfl, admits_of (by decide +kernel), by decide +kernel, by decide +kernel, rfl, admits_of (by decide +kernel), by decide +kernel⟩

theorem test_meets_OperationAndPowerWritesComplete_selftest :
    Instr.objectWrite (.selftest 0 (pw 3 2 32343)) = some (0, Od.SELFTEST, pw 3 2 32343) ∧
    (ready.advance 0).admits (pw 3 2 32343) Od.SELFTEST ∧ ready.get Od.SELFTEST_SEL ≠ 0 ∧ ready.selftesting = false ∧
    (List.range 4).any ready.pipeOn = false ∧ bitOf (ready.get Od.SELFTEST_SEL) 2 = true ∧
    ∀ q < 128, ready.on (Od.Q_ENABLE q) = false :=
  ⟨rfl, admits_of (by decide +kernel), by decide +kernel⟩

theorem test_meets_OperationAndPowerWritesComplete_power :
    let s := upWith [(Od.PD_STATE 10, 0), (Od.PD_REQ 7, 0), (Od.TICK_EN, 1), (Od.PLL_MHZ 3, 800), (Od.PLL_MHZ 4, 1066)]
    (s.advance 0).admits (pw 1 1 1) (Od.PD_REQ 7) ∧ s.running = true ∧ s.pd 10 = 0 ∧ s.inCascade = false ∧
    s.get (Od.PD_REQ 7) = 0 ∧
    (s.advance 0).admits (pw 1 1 0) (Od.PD_REQ 0) ∧ s.pd 3 = 2 ∧ s.wheel.table = none ∧
    (s.advance 0).admits (pw 3 2 400) (Od.PLL_REQ_MHZ_CPLL + 3) ∧ s.admClock 3 ≤ 400 ∧ s.get (Od.PLL_MHZ 3) = 800 ∧
    mget s.pwr.pllChanging 3 = none ∧ s.on Od.TICK_EN = true ∧
    (s.advance 0).admits (pw 2 1 0) Od.MEM_RATE_REQ ∧ s.opRunning .memTrain = false ∧ s.selftesting = false ∧
    s.admClock 4 ≤ mpllMhz 0 ∧ s.get (Od.PLL_MHZ 4) ≠ mpllMhz 0 ∧ mget s.pwr.pllChanging 4 = none :=
  ⟨admits_of (by decide +kernel), by decide +kernel, by decide +kernel, by decide +kernel, by decide +kernel,
    admits_of (by decide +kernel), by decide +kernel, by decide +kernel, admits_of (by decide +kernel), by decide +kernel,
    by decide +kernel, by decide +kernel, by decide +kernel, admits_of (by decide +kernel), by decide +kernel⟩

theorem test_meets_TickWheelAndCascadeWritesComplete_ticks :
    (up.advance 0).admits (pw 2 1 2) Od.TICK_SRC ∧ (up.inCascade && up.on Od.CAS_ROLE) = false ∧
    (up.advance 0).admits (pw 4 4 2500000) Od.GEN_PERIOD_NS ∧ (up.advance 0).admits (pw 4 4 50000000) Od.GEN_PERIOD_NS ∧
    (up.advance 0).admits (pw 1 1 1) Od.TICK_EN ∧ up.selftesting = false ∧ up.opRunning .memTrain = false ∧
    (let s := upWith [(Od.TICK_EN, 1)]
     (s.advance 0).admits (pw 1 1 0) Od.TICK_EN ∧ s.wheel.table = none) :=
  ⟨admits_of (by decide +kernel), by decide +kernel, admits_of (by decide +kernel), admits_of (by decide +kernel),
    admits_of (by decide +kernel), by decide +kernel, by decide +kernel, admits_of (by decide +kernel), by decide +kernel⟩

/-- A Waterwheel table of no entry. -/
def noWheel : Wheel := { tickNs := 8000000, spll := 0, npll := 0, vpll := 0, cpll := 0, mpll := 0, entries := [] }

theorem test_meets_TickWheelAndCascadeWritesComplete_wheel :
    let s : State := { up with wheel := { Reset.wheel with table := some noWheel } }
    (s.advance 0).admits (pw 3 2 4080) Od.WHEEL_UNLOAD ∧ s.opRunning .wheelLoad = false ∧ s.wheel.table.isSome = true ∧
    (let t := upWith [(Od.CAS_STATE, 2)]
     (t.advance 0).admits (pw 3 2 53584) Od.CAS_DISSOLVE ∧ t.on Od.CAS_ROLE = false ∧ t.inCascade = true) :=
  ⟨admits_of (by decide +kernel), by decide +kernel, by decide +kernel, admits_of (by decide +kernel), by decide +kernel⟩

theorem test_meets_TranslationAndQueueWritesComplete_xlat :
    (up.advance 0).admits (pw 5 8 0xFFFFFF8000) (Od.XLAT_ROOT 63) ∧ (up.advance 0).admits (pw 1 1 1) (Od.XLAT_EN 63) ∧
    (up.advance 0).admits (pw 1 1 1) (Od.XLAT_INVAL 63) ∧ (0xFFFFFF8000 : Nat) ≠ up.get (Od.XLAT_ROOT 63) ∧
    (1 : Nat) ≠ up.get (Od.XLAT_EN 63) :=
  ⟨admits_of (by decide +kernel), admits_of (by decide +kernel), admits_of (by decide +kernel), by decide +kernel⟩

theorem test_meets_TranslationAndQueueWritesComplete_queue :
    let s := upWith [(Od.CL_CR_EN 0, 1), (Od.Q_ENABLE 5, 1), (Od.Q_TAIL 5, 7), (Od.Q_DONE 5, 7), (Od.CL_CR_TAIL 9, 3)]
    (s.advance 0).admits (pw 1 1 1) (Od.Q_ENABLE 127) ∧ s.get (Od.Q_ENABLE 127) ≠ 1 ∧
    s.on (Od.CL_CR_EN (s.get (Od.Q_OWNER 127))) = true ∧
    (s.advance 0).admits (pw 1 1 0) (Od.Q_ENABLE 5) ∧ s.get (Od.Q_ENABLE 5) ≠ 0 ∧ s.get (Od.Q_TAIL 5) = s.get (Od.Q_DONE 5) ∧
    (s.advance 0).admits (pw 1 1 1) (Od.CL_CR_EN 63) ∧ s.get (Od.CL_CR_EN 63) ≠ 1 ∧
    (s.advance 0).admits (pw 4 4 3) (Od.CL_CR_HEAD 9) ∧
    subMod 32 3 (s.get (Od.CL_CR_HEAD 9)) ≤ subMod 32 (s.get (Od.CL_CR_TAIL 9)) (s.get (Od.CL_CR_HEAD 9)) ∧
    (let t := upWith [(Od.CL_CR_EN 2, 1)]
     (t.advance 0).admits (pw 1 1 0) (Od.CL_CR_EN 2) ∧ t.get (Od.CL_CR_EN 2) ≠ 0 ∧ t.ownsEnabled 2 = false) :=
  ⟨admits_of (by decide +kernel), by decide +kernel, by decide +kernel, admits_of (by decide +kernel), by decide +kernel,
    by decide +kernel, admits_of (by decide +kernel), by decide +kernel, admits_of (by decide +kernel), by decide +kernel,
    admits_of (by decide +kernel), by decide +kernel⟩

/-- A slot stream of 64 × 64 pixels. -/
def streamed (i : Nat) : State :=
  upWith [(Od.IS_KIND i, 2), (Od.IS_FMT i, 0x03), (Od.IS_WIDTH i, 64), (Od.IS_HEIGHT i, 64), (Od.IS_PITCH i, 256),
    (Od.IS_FLAG i, 0xFFFF), (Od.IS_REL_FLAG i, 0xFFFF)]

theorem test_meets_StreamSlotAndPipeWritesComplete_stream :
    let s := streamed 15
    (s.advance 0).admits (pw 1 1 1) (Od.IS_EN 15) ∧ s.get (Od.IS_EN 15) ≠ 1 ∧ s.get (Od.IS_KIND 15) ≠ 0 ∧
    streamFmtOk (s.get (Od.IS_KIND 15)) (s.get (Od.IS_FMT 15)) (s.get (Od.IS_PACK 15)) = true ∧ s.pitchOk 15 = true ∧
    s.get (Od.IS_KIND 15) ≠ 1 ∧ s.streamClash 15 = false ∧ s.streamFlagOk 15 (Od.IS_FLAG 15) = true ∧
    s.streamFlagOk 15 (Od.IS_REL_FLAG 15) = true ∧
    (let t := upWith [(Od.IS_EN 0, 1)]
     (t.advance 0).admits (pw 1 1 0) (Od.IS_EN 0) ∧ t.get (Od.IS_EN 0) ≠ 0) :=
  ⟨admits_of (by decide +kernel), by decide +kernel, by decide +kernel, by decide +kernel, by decide +kernel, by decide +kernel,
    by decide +kernel, by decide +kernel, by decide +kernel, admits_of (by decide +kernel), by decide +kernel⟩

theorem test_meets_StreamSlotAndPipeWritesComplete_slot :
    (up.advance 0).admits (pw 1 1 1) (Od.ST_CLEAR 3) ∧ (up.advance 0).slotHeld 3 none = false ∧
    (let t := upWith [(Od.SV_ENABLE 7, 1)]
     (t.advance 0).admits (pw 1 1 0) (Od.SV_ENABLE 7) ∧ t.get (Od.SV_ENABLE 7) ≠ 0 ∧
     t.get (Od.Q_TAIL (t.get (Od.SV_QUEUE 7))) = t.get (Od.Q_DONE (t.get (Od.SV_QUEUE 7)))) :=
  ⟨admits_of (by decide +kernel), by decide +kernel, admits_of (by decide +kernel), by decide +kernel⟩

/-- A level-2 entry: valid, writable, of a target and a page (R118). -/
def l2 (target page : Nat) : Nat := 2 ^ 63 + target * 2 ^ 61 + 2 ^ 60 + page * 2 ^ 16

/-- Client 0 translated: page 1 leads to partition 0 of kind STATE, pages 2 and 3 to DRAM; queue 63 is idle and enabled. -/
def served : State :=
  { upWith [(Od.XLAT_EN 0, 1), (Od.PART_ACT_KIND 0, 5), (Od.SV_STATE_VA 7, 0x10000), (Od.SV_POOL_VA 7, 0x20000),
      (Od.SV_NET_VA 7, 0x30000), (Od.SV_NET_COUNT 7, 1), (Od.SV_POOL_PAGES 7, 1), (Od.SV_SEQ_PAGES 7, 1), (Od.SV_QUEUE 7, 63),
      (Od.Q_ENABLE 63, 1)] with
    mem := { Reset.mem with cache := [(1, l2 1 0), (2, l2 0 2), (3, l2 0 3)] } }

theorem test_meets_StreamSlotAndPipeWritesComplete_session :
    let u : State := { served.advance 0 with out := [] }
    (served.advance 0).admits (pw 1 1 1) (Od.SV_ENABLE 7) ∧ served.get (Od.SV_ENABLE 7) ≠ 1 ∧ served.svQueueOk 7 = true ∧
    u.svStateOk 7 = true ∧ u.svPoolOk 7 = true ∧ (u.svDescs 7).2 = some [zeroBytes 128] ∧
    kvBytesOf [zeroBytes 128] * served.get (Od.SV_PAGE_TOKENS 7) ≤ 65536 :=
  ⟨admits_of (by decide +kernel), by decide +kernel⟩

theorem test_meets_StreamSlotAndPipeWritesComplete_pipe :
    let s := upWith ((Od.LINK_STATE 3, 2) :: timed 3)
    (s.advance 0).admits (pw 1 1 1) (Od.PIPE_EN 3) ∧ s.selftesting = false ∧ s.on (Od.PIPE_EN 3) = false ∧
    s.opRunning .memTrain = false ∧ s.pipeEnOk 3 = true ∧
    (s.advance 0).admits (pw 2 1 6) (Od.PIPE_IF 3) ∧ s.get (Od.PIPE_IF 3) ≠ 6 ∧
    (∀ q < 4, q ≠ 3 → portOfIf (s.get (Od.PIPE_IF q)) ≠ portOfIf 6) ∧
    (let t := upWith [(Od.PIPE_EN 0, 1)]
     (t.advance 0).admits (pw 1 1 0) (Od.PIPE_EN 0) ∧ t.on (Od.PIPE_EN 0) = true) :=
  ⟨admits_of (by decide +kernel), by decide +kernel, by decide +kernel, by decide +kernel, by decide +kernel,
    admits_of (by decide +kernel), by decide +kernel, by decide +kernel, admits_of (by decide +kernel), by decide +kernel⟩

def fwKey (v : Nat) : WReq := ⟨.fw, 3, 2, v⟩

theorem test_meets_WatchdogWritesComplete_governor :
    (fwKey 0x4D11).via = .fw ∧ (up.advance 2000000000).admits (fwKey 0x4D11) Od.GOV_KEY ∧
    (up.advance 2000000000).governorOpen = true ∧ (up.advance 0).admits (fwKey 0) Od.GOV_KEY :=
  ⟨rfl, admits_of (by decide +kernel), by decide +kernel, admits_of (by decide +kernel)⟩

theorem test_meets_WatchdogWritesComplete_scarecrow :
    let s : State := { upWith [(Od.SCARE_EN, 1)] with watch := { Reset.watch with scareArm := some 0 } }
    (s.advance 1000000000).admits (pw 3 2 0x5EED) Od.SCARE_KEY ∧ s.scareRuns = true ∧ (s.advance 1000000000).scareOpen = true ∧
    (up.advance 0).admits (pw 3 2 0x5EED) Od.SCARE_KEY ∧ up.scareRuns = false ∧
    (s.advance 0).admits (pw 3 2 0x3A7C) Od.SCARE_DISABLE ∧ s.on Od.SCARE_LOCK = false ∧
    (s.advance 1000000).admits (pw 3 2 0xC5B2) Od.SCARE_DISABLE ∧ s.now + 1000000 ≤ 0 + 1000000 ∧ s.on Od.SCARE_EN = true ∧
    (up.advance 0).admits (pw 1 1 1) Od.SCARE_LOCK :=
  ⟨admits_of (by decide +kernel), by decide +kernel, by decide +kernel, admits_of (by decide +kernel), by decide +kernel,
    admits_of (by decide +kernel), by decide +kernel, admits_of (by decide +kernel), by decide +kernel, by decide +kernel,
    admits_of (by decide +kernel)⟩

/-! ## Power, boot and resets -/

def goodBoard : Board := { cfg := 0x0109, measuredKHz := 25000, timely := true, within100ppm := true }

theorem test_meets_PowerOnResetLeavesDefaults : State.reset.boot.phase ≠ .unpowered := by decide

theorem test_meets_ReleaseLatchesStraps :
    State.reset.boot.phase ≠ .unpowered ∧ State.reset.boot.porst = false ∧ State.reset.tap.taken = false ∧
    offLimits goodBoard = false ∧ offLimits { goodBoard with timely := false } = true ∧ State.reset.boot.store = none := by decide

/-- The device without supplies. -/
def off : State := { State.reset with boot := { Reset.boot with phase := .unpowered } }

theorem test_meets_SuppliesAndBoardEventsComplete :
    off.boot.phase = .unpowered ∧ up.boot.phase = .running ∧ up.tB + 20000000 ≤ up.now + 20000000 ∧ up.boot.phase ≠ .unpowered ∧
    up.on Od.PLCA_EN = true ∧
    (let s := upWith [(Od.NODE_ID, 7)]
     s.boot.phase = .running ∧ s.on Od.PLCA_EN = true ∧ 1 ≤ s.get Od.NODE_ID ∧ s.get Od.NODE_ID ≤ 7) ∧
    (let s := upWith [(Od.STRAP_RAW, 0x100)]
     s.strapPcie = true ∧ s.alive = true) := by decide +kernel

theorem test_meets_WarmResetKeepsDramAndLog :
    up.boot.phase.resting = false ∧ (up.advance 0).admits (pw 3 2 31292) Od.WARM_RESET ∧
    ({ up with boot := { up.boot with phase := .warmHeld } } : State).boot.phase = .warmHeld :=
  ⟨by decide +kernel, admits_of (by decide +kernel), rfl⟩

theorem test_meets_ResetRequestsInteract :
    State.reset.boot.phase.resting = true ∧ up.boot.phase.resting = false ∧
    (let s := upWith [(Od.PD_STATE 3, 0), (Od.PIPE_EN 3, 1)]
     (s.advance 0).admits (pw 2 1 0) Od.ENGINE_RESET ∧ s.engineCode 0 ≠ Ab.OK ∧
     (s.advance 0).admits (pw 2 1 4) Od.ENGINE_RESET ∧ s.engineCode 4 = Ab.OK ∧ s.pipeOn 3 = true) :=
  ⟨by decide, by decide +kernel, admits_of (by decide +kernel), by decide +kernel, admits_of (by decide +kernel),
    by decide +kernel⟩

theorem test_meets_ResetRequestsInteract_client :
    (up.advance 0).pathUp (pw 2 1 0).via = true ∧ (up.advance 0).mayAccess (pw 2 1 64).via Od.CLIENT_RESET true false = true ∧
    up.domCode (domainOf (Od.CLIENT_RESET / 256) (Od.CLIENT_RESET % 256)) = Ab.OK ∧ 63 < (pw 2 1 64).val ∧
    (up.advance 0).admits (pw 2 1 1) Od.ENGINE_RESET ∧ up.engineCode 1 = Ab.OK :=
  ⟨by decide +kernel, by decide +kernel, by decide +kernel, by decide, admits_of (by decide +kernel), by decide +kernel⟩

theorem test_meets_EngineAndClientResetsClear :
    (up.advance 0).admits (pw 2 1 5) Od.ENGINE_RESET ∧ up.engineCode 5 = Ab.OK ∧ (∀ p < 4, up.pipeOn p = false) ∧
    (up.advance 0).admits (pw 2 1 63) Od.CLIENT_RESET ∧ up.boot.pcieUp = true :=
  ⟨admits_of (by decide +kernel), by decide +kernel, by decide +kernel, admits_of (by decide +kernel), by decide +kernel⟩

/-- The boot ROM is about to act. -/
def starting : State := { up with boot := { up.boot with phase := .starting } }

theorem test_meets_BootStartsOrRefusesFirmware :
    starting.boot.phase = .starting ∧ starting.bootSrc = 0 ∧ (starting.sets [(Od.STRAP_RAW, 0x40)]).bootSrc ≠ 0 ∧
    (let v : Verify := { image := zeroBytes 224, source := .nor, slot := none }
     let s : State := { starting with boot := { starting.boot with verifying := some v } }
     s.boot.verifying = some v ∧ s.verifyImage v.image ≠ Ab.OK) := by decide +kernel

/-- `up` with one long operation in slot 255. -/
def running (k : OpKind) : State := { up with ops := [{ slot := 255, kind := k, origin := .pcie 0 }] }

theorem test_meets_LongOperationDoneReports :
    ∀ k ∈ [OpKind.store, .erase, .memTrain, .linkTrain 3, .selftest 7],
      (running k).ops.find? (fun o => o.slot.val == 255) = some { slot := 255, kind := k, origin := .pcie 0 } := by decide +kernel

theorem test_meets_DomainsAndPllsChange :
    (let s := upWith [(Od.PD_STATE 10, 3), (Od.PD_STATE 3, 1)]
     s.pd 10 = 3 ∧ s.pwr.drained.contains 10 = false ∧ s.pd 3 = 1 ∧ s.boot.store = none) ∧
    (let s : State := { upWith [(Od.PD_STATE 10, 3)] with pwr := { Reset.pwr with drained := [10] } }
     s.pd 10 = 3 ∧ s.pwr.drained.contains 10 = true) := by decide +kernel

theorem test_meets_DomainsAndPllsChange_pll :
    (let s : State := { up with pwr := { Reset.pwr with pllPending := [(4, (800, 0))] } }
     (s.advance 0).pllMayStart 4 = true ∧ mget s.pwr.pllPending 4 = some (800, 0)) ∧
    (let s : State := { up with pwr := { Reset.pwr with pllChanging := [(0, (400, 0))] } }
     mget s.pwr.pllChanging 0 = some (400, 0)) := by decide +kernel

/-! ## The tick -/

/-- Ticks run from a source, since the T_B at 0. -/
def ticking (src : Nat) (since : Nat) : State :=
  { upWith [(Od.TICK_EN, 1), (Od.PIPE_EN 0, 1), (Od.H_ACTIVE 0, 64), (Od.V_ACTIVE 0, 64), (Od.PCLK_KHZ 0, 1000)] with
    tick := { Reset.tick with src := src, since := since, substAfter := 10000000 } }

theorem test_meets_TicksAndBucketsBegin :
    (ticking 1 0).alive = true ∧ (ticking 1 0).on Od.TICK_EN = true ∧ (ticking 1 0).tick.src = 1 ∧ (ticking 1 0).ticksAt 2500000 ∧
    (ticking 1 1).ticksAt 2500000 ∧ (ticking 0 1).beginsFrame 0 4096000 ∧ (ticking 0 1).tick.src = 0 ∧
    ((ticking 2 0).advance 8333333).generatorDue = true ∧ ((ticking 1 1).advance 10000000).substDue = true := by
  unfold State.ticksAt State.beginsFrame
  decide +kernel

theorem test_meets_TicksAndBucketsBegin_bucket :
    (let s : State := { upWith [(Od.TICK_EN, 1), (Od.CUR_BUCKET, 254)] with tick := { Reset.tick with since := 1 } }
     s.alive = true ∧ s.on Od.TICK_EN = true ∧ s.tick.since ≠ 0 ∧ s.get Od.CUR_BUCKET < 255 ∧
     (s.get Od.CUR_BUCKET + 1) * s.tick.predicted ≤ 256 * (s.now + 8400000 - s.tick.lastAt)) ∧
    (let s : State := { up with tick := { Reset.tick with pin := .high } }
     s.tick.pin = .high ∧ s.tick.outRise + 4000 ≤ s.now + 4000) := by decide +kernel

theorem test_meets_RuntsAreCounted :
    (ticking 1 1).tick.since ≠ 0 ∧ (ticking 1 1).now + 2500059 - min 60 60 < (ticking 1 1).tB + (ticking 1 1).get Od.TICK_TS + 2500000 ∧
    up.on Od.TICK_EN = false ∧ (ticking 1 0).tick.since = 0 ∧ (ticking 1 0).now + 2499999 < (ticking 1 0).tick.enAt + 2500000 ∧
    (let s : State := (ticking 0 1).sets [(Od.PCLK_KHZ 0, 4096)]
     s.beginsFrame 0 (s.now + 1000000) ∧ s.alive = true ∧ s.on Od.TICK_EN = true ∧ s.tick.src = 0 ∧ s.tick.since ≠ 0 ∧
     s.now + 1000000 < s.tB + s.get Od.TICK_TS + 2500000 ∧
     (let t := s.set Od.TICK_EN 0
      t.beginsFrame 0 (t.now + 1000000) ∧ t.on Od.TICK_EN = false)) := by
  unfold State.beginsFrame
  decide +kernel

/-! ## The field network -/

/-- A frame of node 9 to this device: flags, opcode, payload. -/
def bapFrame (op : Nat) (payload : List Byte) : BapFrame :=
  { dstMac := broadcastMac, srcMac := 0x99, bytes := bapHeader false false op 5 0 9 payload.length ++ payload }

/-- A session of node 9, and what it is once it has accepted count 4 and answered. -/
def sess : Session := { node := 9, keyId := 1, sk := zeroBytes 32, lastRx := 3, lastTx := 0, lastValid := 0 }
def sess' : Session := { sess with lastRx := 4, lastTx := 1 }

/-- The same under the session. -/
def authFrame (op : Nat) (payload : List Byte) : BapFrame :=
  { dstMac := broadcastMac, srcMac := 0x99, bytes := sealFrame sess 4 (bapHeader false true op 5 0 9 payload.length ++ payload) }

/-- `up` with a MAC address of its own and the session. -/
def netUp : State :=
  let s := upWith [(Od.MAC_ADDR, 2)]
  { s with bap := { s.bap with sessions := [sess] } }

/-- `accepts` as a computation, outside a session. -/
def acceptsB (s : State) (f : BapFrame) : Bool :=
  s.netUp && f.bytes.length ≥ 8 && s.addressed f && !discarded f && (mget s.bap.kept (requestOf f).src).isNone &&
  s.bap.waiting.isEmpty && !(requestOf f).auth

theorem accepts_of {s : State} {f : BapFrame} (h : acceptsB s f = true) : s.accepts f (requestOf f) none := by
  simp only [acceptsB, Bool.and_eq_true, Bool.not_eq_true', decide_eq_true_eq, Option.isNone_iff_eq_none,
    List.isEmpty_iff] at h
  obtain ⟨⟨⟨⟨⟨⟨h1, h2⟩, h3⟩, h4⟩, h5⟩, h6⟩, h7⟩ := h
  refine ⟨h1, h2, h3, h4, rfl, ?_, ?_, ?_⟩
  · simp [h5]
  · simp [h6]
  · simp [h7]

/-- `accepts` as a computation, under a session. -/
def acceptsAuthB (s : State) (f : BapFrame) (x : Session) : Bool :=
  s.netUp && f.bytes.length ≥ 8 && s.addressed f && !discarded f && (mget s.bap.kept (requestOf f).src).isNone &&
  s.bap.waiting.isEmpty && (requestOf f).auth && s.sessionFor (requestOf f) == some x

theorem acceptsAuth_of {s : State} {f : BapFrame} {x : Session} (h : acceptsAuthB s f x = true) :
    s.accepts f (requestOf f) (some x) := by
  simp only [acceptsAuthB, Bool.and_eq_true, Bool.not_eq_true', decide_eq_true_eq, Option.isNone_iff_eq_none,
    List.isEmpty_iff, beq_iff_eq] at h
  obtain ⟨⟨⟨⟨⟨⟨⟨h1, h2⟩, h3⟩, h4⟩, h5⟩, h6⟩, h7⟩, h8⟩ := h
  refine ⟨h1, h2, h3, h4, rfl, ?_, ?_, ?_⟩
  · simp [h5]
  · simp [h6]
  · simp [h7, h8]

/-- A row that a computation answers and that meets a condition. -/
def rowIs (x : Except Nat Row) (p : Row → Bool) : Bool :=
  match x with
  | .ok r => p r
  | .error _ => false

theorem row_of {x : Except Nat Row} {p : Row → Bool} (h : rowIs x p = true) : ∃ r, x = .ok r ∧ p r = true := by
  cases x with
  | ok r => exact ⟨r, rfl, h⟩
  | error _ => simp [rowIs] at h

def readRunts : BapFrame := bapFrame 1 [0x21, 0x00, 0x08, 0]
def writeDest : BapFrame := authFrame 2 [0x11, 0x00, 0x06, 2, 9]
def readEvents : BapFrame := bapFrame 4 ([0xA0, 0x00, 0x02, 0] ++ toBe 4 32767 ++ toBe 2 1024)

theorem test_meets_BapReadsAndWritesAnswer :
    ((netUp.advance 0).accepts readRunts (requestOf readRunts) none ∧ (requestOf readRunts).opcode = 1 ∧
      (requestOf readRunts).payload.length = 4 ∧ fldBe (requestOf readRunts).payload 0 2 = 0x2100 ∧
      fldBe (requestOf readRunts).payload 2 1 = 8 ∧
      ∃ row, (netUp.advance 0).readCheck (requestOf readRunts).path 0x2100 8 = .ok row ∧ (row.acc == .rc) = true) ∧
    ((netUp.advance 0).accepts writeDest (requestOf writeDest) (some sess') ∧ (requestOf writeDest).opcode = 2 ∧
      4 ≤ (requestOf writeDest).payload.length ∧ fldBe (requestOf writeDest).payload 0 2 = 0x1100 ∧
      fldBe (requestOf writeDest).payload 2 1 = 6 ∧ (∃ row, lookup 0x1100 6 = .ok row) ∧ isCommand (0x1100 * 256 + 6) = false ∧
      (netUp.advance 0).admits ⟨(requestOf writeDest).path, 2, 1, 9⟩ (0x1100 * 256 + 6) ∧
      ∀ (u : State) (v : Nat), u.writeEffect (requestOf writeDest).path (0x1100 * 256 + 6) v = .ok (u.set (0x1100 * 256 + 6) v)) :=
  ⟨⟨accepts_of (by decide +kernel), by decide +kernel, by decide +kernel, by decide +kernel, by decide +kernel,
    row_of (by decide +kernel)⟩,
   ⟨acceptsAuth_of (by decide +kernel), by decide +kernel, by decide +kernel, by decide +kernel, by decide +kernel, ⟨_, rfl⟩,
    by decide +kernel, admits_of (by decide +kernel), fun _ _ => rfl⟩⟩

/-- A segment of a palette: its offset and its bytes, of 1,024 in all. -/
def segment (off : Nat) (b : List Byte) : BapFrame :=
  authFrame 3 (toBe 2 (Od.PALETTE 3 / 256) ++ toBe 1 (Od.PALETTE 3 % 256) ++ [9] ++ toBe 4 off ++ toBe 4 1024 ++ b)

/-- The transfer stands at byte 1,023. -/
def netXfer : State :=
  { netUp with bap := { netUp.bap with xfers := [(Od.PALETTE 3, ⟨.bap 9 0x99 true, 1024, zeroBytes 1023, 0⟩)] } }

/-- What a BLOCK_WRITE of the palette needs besides its place in the transfer. -/
def segmentOk (s : State) (off : Nat) (b : List Byte) : Bool :=
  let f := segment off b
  let r := requestOf f
  acceptsAuthB (s.advance 0) f sess' && r.opcode == 3 && r.payload.length ≥ 13 && r.payload.length ≤ 1036 &&
  fldBe r.payload 0 2 == Od.PALETTE 3 / 256 && fldBe r.payload 2 1 == Od.PALETTE 3 % 256 && fldBe r.payload 3 1 == 9 &&
  fldBe r.payload 4 4 == off && fldBe r.payload 8 4 == 1024 && 1024 ≤ (domSize (Od.PALETTE 3)).1 &&
  off + (r.payload.drop 12).length ≤ 1024 && r.payload.drop 12 == b &&
  rowIs ((s.advance 0).locate r.path (Od.PALETTE 3 / 256) (Od.PALETTE 3 % 256) true true)
    (fun row => row.ty == .dom && row.acc != .ro && row.acc != .rc && !s.locked row (Od.PALETTE 3))

theorem test_meets_BlockTransfersMoveContent :
    segmentOk netUp 0 (zeroBytes 1024) = true ∧ segmentOk netUp 0 [7] = true ∧ segmentOk netXfer 1023 [7] = true ∧
    mget netXfer.bap.xfers (Od.PALETTE 3) = some ⟨.bap 9 0x99 true, 1024, zeroBytes 1023, 0⟩ ∧
    samePath (.bap 9 0x99 true) (requestOf (segment 1023 [7])).path = true ∧ (zeroBytes 1023).length = 1023 := by decide +kernel

theorem test_meets_BlockTransfersMoveContent_read :
    (netUp.advance 0).accepts readEvents (requestOf readEvents) none ∧ (requestOf readEvents).opcode = 4 ∧
    (requestOf readEvents).payload.length = 10 ∧ fldBe (requestOf readEvents).payload 0 2 = 0xA000 ∧
    fldBe (requestOf readEvents).payload 2 1 = 2 ∧ fldBe (requestOf readEvents).payload 8 2 ≤ 1024 ∧
    ∃ row, (netUp.advance 0).locate (requestOf readEvents).path 0xA000 2 false true = .ok row ∧
      (row.ty == .dom && row.acc != .wo && row.acc != .wo1) = true :=
  ⟨accepts_of (by decide +kernel), by decide +kernel, by decide +kernel, by decide +kernel, by decide +kernel, by decide +kernel,
    row_of (by decide +kernel)⟩

def openFrame (k : Nat) : BapFrame := bapFrame 0x20 (toBe 4 (k * 2 ^ 24) ++ zeroBytes 16)
def closeFrame : BapFrame := authFrame 0x21 []
def discover (dst : Nat) : BapFrame :=
  { dstMac := broadcastMac, srcMac := 0x99, bytes := bapHeader false false 0x30 5 dst 9 0 }

theorem test_meets_SessionsAndDiscoverAnswer :
    (let s := netUp.setDom (Od.HMAC_KEY 7) (zeroBytes 32)
     (s.advance 0).accepts (openFrame 7) (requestOf (openFrame 7)) none ∧ (requestOf (openFrame 7)).opcode = 0x20 ∧
      (requestOf (openFrame 7)).payload.length = 20 ∧ fldBe (requestOf (openFrame 7)).payload 0 1 = 7 ∧
      s.getDom (Od.HMAC_KEY 7) ≠ []) ∧
    ((netUp.advance 0).accepts closeFrame (requestOf closeFrame) (some sess') ∧ (requestOf closeFrame).opcode = 0x21 ∧
      (requestOf closeFrame).payload = [] ∧ (requestOf closeFrame).auth = true) :=
  ⟨⟨accepts_of (by decide +kernel), by decide +kernel⟩, ⟨acceptsAuth_of (by decide +kernel), by decide +kernel⟩⟩

theorem test_meets_SessionsAndDiscoverAnswer_discover :
    ((netUp.advance 0).accepts (discover 0) (requestOf (discover 0)) none ∧ (requestOf (discover 0)).opcode = 0x30 ∧
      (requestOf (discover 0)).payload = [] ∧ (requestOf (discover 0)).dst ≠ 0xFF) ∧
    (let s := netUp.set Od.NODE_ID 8
     (s.advance 0).accepts (discover 0xFF) (requestOf (discover 0xFF)) none ∧ (requestOf (discover 0xFF)).opcode = 0x30 ∧
      (requestOf (discover 0xFF)).payload = [] ∧ (requestOf (discover 0xFF)).dst = 0xFF ∧ s.get Od.NODE_ID ≠ 0) :=
  ⟨⟨accepts_of (by decide +kernel), by decide +kernel⟩, ⟨accepts_of (by decide +kernel), by decide +kernel⟩⟩

/-- A frame kept with its response. -/
def keeping (f : BapFrame) : State :=
  { netUp with bap := { netUp.bap with kept := [(9, ⟨(requestOf f).body ++ (requestOf f).trailer, [1]⟩)] } }

/-- What a duplicate needs. -/
def duplicates (f : BapFrame) : Bool :=
  let s := keeping f
  (s.advance 0).netUp && 8 ≤ f.bytes.length && s.addressed f && !discarded f && (requestOf f).src == 9 &&
  (match mget s.bap.kept 9 with
   | some k => sameRequest k (requestOf f) && (!(requestOf f).auth || sameTrailer k (requestOf f))
   | none => false) && s.bap.waiting.isEmpty

theorem test_meets_DuplicatesAndTimeoutsEndQuietly :
    [readRunts, writeDest, segment 0 [7], readEvents, openFrame 0, closeFrame, discover 0xFF].all duplicates = true := by
  decide +kernel

theorem test_meets_DuplicatesAndTimeoutsEndQuietly_times :
    (let w : Waiting := { node := 9, mac := 2, due := 14000000, frame := some [], after := none }
     let s : State := { netUp with bap := { netUp.bap with waiting := [w] } }
     s.boot.phase = .running ∧ s.bap.waiting = [] ++ w :: [] ∧ w.frame = some [] ∧ w.due ≤ s.now + 14000000) ∧
    (∃ x, mget netXfer.bap.xfers (Od.PALETTE 3) = some x ∧ x.last + 1000000000 ≤ netXfer.now + 1000000000) ∧
    netUp.session 9 = some sess ∧ sess.lastValid + netUp.get Od.SESSION_IDLE_MS * 1000000 ≤ netUp.now + 10000000000 :=
  ⟨by decide +kernel, ⟨_, rfl, by decide +kernel⟩, by decide +kernel⟩
/-! ## The window, flags and doorbells -/

theorem test_meets_AccessBlockCompletes :
    up.boot.pcieUp = true ∧ (up.win 63).goUntil ≤ up.now ∧ 4 % 16 ≠ 9 ∧ 9 % 16 = 9 ∧
    rowIs ((up.advance 0).readCheck (.pcie 63) 0x4000 3) (fun _ => true) = false ∧
    rowIs ((up.advance 0).readCheck (.pcie 0) 0x2100 8) (fun row => row.acc == .rc) = true ∧
    rowIs ((up.advance 0).locate (.pcie 0) 0xA000 2 false true) (fun row => row.ty == .dom && row.acc != .wo && row.acc != .wo1)
      = true := by decide +kernel

theorem test_meets_AccessBlockCompletes_write :
    let k := 0x1100 * 256 + 6
    let v := (0xFFFFFFFF % 2 ^ 32 * 2 ^ 32 + 9 % 2 ^ 32) % 2 ^ (8 * codeSize (2 % 16))
    2 % 16 ≠ 9 ∧ (∃ row, lookup 0x1100 6 = .ok row) ∧ isCommand k = false ∧ k ≠ Od.NODE_ID ∧ k ≠ Od.WARM_RESET ∧
    (up.advance 0).admits ⟨.pcie 0, 2 % 16, codeSize (2 % 16), v⟩ k ∧
    ∀ (u : State) (x : Nat), u.writeEffect (.pcie 0) k x = .ok (u.set k x) :=
  ⟨by decide, ⟨_, rfl⟩, by decide, by decide, by decide, admits_of (by decide +kernel), fun _ _ => rfl⟩

/-- Function 0 maps its last page to an index. -/
def paged (idx : Nat) : State := { up with wins := [(0, { Reset.win with pageMap := [(63, 2 ^ 31 + idx)] })] }

theorem test_meets_DoorbellsAndDirectPagesComplete :
    ((paged 0x2100).win 0).pageIndex 63 = some 0x2100 ∧ ((paged 0x1100).win 0).pageIndex 63 = some 0x1100 ∧ (∃ row, lookup 0x1100 6 = .ok row ∧ (row.ty != .u64) = true) ∧
    blockOnly 0x1100 6 = false ∧ ((paged 0x1100).advance 0).admits ⟨.pcie 0, 2, 1, 9⟩ (0x1100 * 256 + 6) ∧
    (∀ (u : State) (x : Nat), u.writeEffect (.pcie 0) (0x1100 * 256 + 6) x = .ok (u.set (0x1100 * 256 + 6) x)) ∧
    (∃ row, lookup 0x2100 3 = .ok row ∧ (row.ty == .u64) = true) ∧ blockOnly 0x2100 3 = false ∧
    (∃ row, ((paged 0x2100).advance 0).readCheck (.pcie 0) 0x2100 3 = .ok row ∧ (row.ty == .u64) = true) ∧
    (∃ row, ((paged 0x2100).advance 0).readCheck (.pcie 0) 0x2100 8 = .ok row ∧ (row.acc == .rc) = true) :=
  ⟨by decide +kernel, by decide +kernel, row_of (by decide +kernel), by decide +kernel, admits_of (by decide +kernel), fun _ _ => rfl,
    row_of (by decide +kernel), by decide +kernel, row_of (by decide +kernel), row_of (by decide +kernel)⟩

theorem test_meets_DoorbellsAndDirectPagesComplete_doorbell :
    (let s := upWith [(Od.Q_ENABLE 127, 1), (Od.Q_RING_SLOTS 127, 16), (Od.Q_TAIL 127, 0xFFFE), (Od.Q_DONE 127, 0xFFF0)]
     s.boot.pcieUp = true ∧ s.selftesting = false ∧ s.get (Od.Q_OWNER 127) = 0 ∧ s.on (Od.Q_ENABLE 127) = true ∧
     s.engineCode (engineOf 127) = Ab.OK ∧ subMod 16 0 0xFFFE = 2 ∧ subMod 16 0 0xFFF0 ≤ s.ringSlots 127) ∧
    up.on (Od.Q_ENABLE 127) = false := by decide +kernel

theorem test_meets_FlagWritesAndJobQueryComplete :
    (let s := upWith [(Od.CL_SLUICE_BASE 63, 255), (Od.CL_SLUICE_COUNT 63, 1), (Od.CL_FENCE_BASE 63, 1023), (Od.CL_FENCE_COUNT 63, 1)]
     s.mayName 63 false 255 = true ∧ s.mayName 63 true 1023 = true ∧ s.mayName 63 false 254 = false ∧
     s.mayName 0 true 1023 = true) := by decide +kernel

/-! ## The memory system -/

def newParts : List Part := ⟨0, 0, 31, 0⟩ :: ⟨1, 31, 1, 0xFF⟩ :: List.replicate 14 ⟨0, 0, 0, 0⟩

theorem test_meets_MillpondAndMemoryPowerComplete :
    let s : State := { upWith [(Od.PART_ACT_BANKS 0, 31)] with mem := { up.mem with staged := some newParts } }
    s.mem.staged = some newParts ∧ s.jobRunning = false ∧ newParts.length = 16 ∧
    partOfBank ((List.range 16).map s.activePart) 31 ≠ partOfBank newParts 31 ∧
    partOfBank ((List.range 16).map s.activePart) 30 = partOfBank newParts 30 := by decide +kernel

theorem test_meets_MillpondAndMemoryPowerComplete_retention :
    (let s := upWith [(Od.PART_ACT_BANKS 15, 1), (Od.PART_ACT_FIRST_BANK 15, 31)]
     (partOfBank ((List.range 16).map s.activePart) 31).isSome = true ∧ mgetD s.mem.bankUse 31 0 + 1000 ≤ s.now + 1000 ∧
     s.domOn 2 = true) := by decide +kernel

/-- A layer of 64 × 64 pixels in DRAM at 0x1000. -/
def layerCfg : LayerCfg :=
  { job := ⟨88, 0⟩, handle := 0, client := 0, enable := true, rot := 0, mirror := false, alphaMode := 0, flagsByte := 1,
    globalAlpha := 255, va := 0x1000, srcW := 64, srcH := 64, pitch := 256, fmt := 3, dstX := 0, dstY := 0, palKey := 0 }
def shown : Shown := { layer := 0, cfg := layerCfg, frames := 0, first := 0, fault := none }

/-- Pipe 3 runs and shows the layer. -/
def fetching (l : List (Nat × Nat)) : State :=
  { upWith ([(Od.PIPE_EN 3, 1), (Od.PCLK_KHZ 3, 100000), (Od.H_ACTIVE 3, 64), (Od.V_ACTIVE 3, 64)] ++ l) with
    pipes := [(3, { Reset.pipe with scanning := true, layers := [shown] })],
    mem := { Reset.mem with fifos := [(3, { fill := 0, at_ := 0, refilling := false })] } }

theorem test_meets_MillpondAndMemoryPowerComplete_refill :
    let u := ((fetching []).advance 0).settleFifo 3
    u.pipeOn 3 = true ∧ u.dramBits 3 ≠ 0 ∧ (u.fifo 3).refilling = false ∧ u.opRunning .memTrain = false ∧
    (u.pipe 3).abandoned = false ∧ u.ltr 3 ≤ u.srThreshold := by decide +kernel

theorem test_meets_MillpondAndMemoryPowerComplete_sleep :
    (let s := upWith [(Od.SR_EN, 1), (Od.SR_IDLE_NS, 1000)]
     let u := (s.advance 1000).settleFifos
     u.on Od.SR_EN = true ∧ u.mem.refresh = .awake ∧ u.domOn 2 = true ∧ u.opRunning .memTrain = false ∧
     u.mem.lastReq + u.get Od.SR_IDLE_NS ≤ s.now + 1000 ∧ ∀ q < 4, u.pipeOn q = false) ∧
    (let s : State := { fetching [] with mem := { (fetching []).mem with refresh := .asleep 0 } }
     (s.advance 0).pipeOn 3 = true ∧ (s.advance 0).ltr 3 ≤ (s.advance 0).srThreshold) := by decide +kernel

/-! ## The Waterwheel and the queues -/

/-- A table image of one entry: queue 0 on the raster unit, template 1, buckets 0 to 255. -/
def wheelImage (wcet : Nat) : List Byte :=
  put 80 [(0, 4, 0x57574C31), (4, 2, 1), (8, 4, 8333333), (12, 2, 400), (64, 2, 1), (69, 1, 255), (72, 4, wcet)]

/-- The image waits for its checks. -/
def loading (wcet : Nat) (l : List (Nat × Nat)) : State :=
  { upWith l with
    wheel := { Reset.wheel with image := some (wheelImage wcet) },
    ops := [{ slot := 255, kind := .wheelLoad, origin := .pcie 0 }] }

theorem test_meets_WheelChecksDecide :
    let w := wheelOf (wheelImage 1000)
    let s := loading 1000 []
    s.wheelOk (wheelImage 1000) = true ∧ w.entries.all (fun e => s.domOn (unitDomain e.engine e.quarter)) = true ∧
    s.on Od.TICK_EN = false ∧ (loading 1000 [(Od.TICK_EN, 1)]).on Od.TICK_EN = true ∧ s.wheelSlot = some 255 ∧
    (loading 0 []).wheelOk (wheelImage 0) = false ∧
    w.entries.all (fun e => (loading 1000 [(Od.PD_STATE 3, 0)]).domOn (unitDomain e.engine e.quarter)) = false := by decide +kernel

theorem test_meets_WheelChecksDecide_admission :
    (wheelOf (wheelImage 1000)).admFail = none ∧ (wheelOf (wheelImage 100000000)).admFail ≠ none := by decide +kernel

/-- A queued job of a queue with its slot read. -/
def queued (q : Fin 128) (b : List Byte) : Job := { job q .copy b with phase := .queued, unit := none, checked := false }

theorem test_meets_JobsStart :
    let s := jobs up [queued 111 (slot 0x12 [])]
    let u := jobs up [{ queued 111 (slot 0x12 []) with checked := true }]
    let k := { queued 111 (slot 0x12 []) with checked := true }
    (s.advance 0).nextInLine 111 = some (queued 111 (slot 0x12 [])) ∧ (s.advance 0).startBlocked 0 = false ∧
    (s.advance 0).checkLine (queued 111 (slot 0x12 [])) = .ready (u.advance 0) k ∧ (s.advance 0).servingOf 111 = none ∧
    (s.advance 0).bound (queued 111 (slot 0x12 [])) = false ∧ u.unitFor k = (u, some .copy) ∧
    u.outranked .copy (u.prio 111) k.id = false ∧ u.startAhead .copy 111 = false := by decide +kernel

/-- A finished job at the front of queue 127, a ring of four records at 0x1000 with its tail at 7, and the job's flag. -/
def ended (status : Nat) : Job :=
  { job 127 .control (put 64 [(0, 1, 0x10), (1, 1, 8), (4, 2, 255), (12, 4, 9)]) with phase := .finished, status := status }
def ring (tail head : Nat) : State :=
  upWith [(Od.CL_CR_EN 0, 1), (Od.CL_CR_BASE 0, 0x1000), (Od.CL_CR_SLOTS 0, 4), (Od.CL_CR_TAIL 0, tail), (Od.CL_CR_HEAD 0, head)]

theorem test_meets_JobsCompleteWithTheirRecords :
    let s := jobs (ring 3 0) [ended St.OK]
    (((s.advance 0).jobsOf 127).head? = some (ended St.OK) ∧ (ended St.OK).phase = .finished ∧ (s.advance 0).owesLeat (ended St.OK).id = false ∧ s.heldOf 0 = [] ∧
     s.crRoom 0 = true ∧ s.opRunning .memTrain = false ∧ (s.get (Od.CL_CR_BASE 0) + 32 * (3 % 4)) % 32 = 0 ∧
     ((s.advance 0).resolve 0 0x1060 true).2 = some (.dram 0x1060, false) ∧ (0x1060 : Nat) % 32 = 0 ∧
     slotSigEn (ended St.OK).slot = true ∧ (ended St.OK).checked = true) ∧
    (jobs (ring 2 0) [ended St.FAULT]).crRoom 0 = true ∧ (ended St.FAULT).status ∈ [St.ABORTED, St.DEPENDENCY_ABORTED, St.FAULT] ∧
    (let t : State := { ring 7 4 with qs := { Reset.queues with held := [(0, [zeroBytes 33])], stalled := [0] } }
     t.heldOf 0 = zeroBytes 33 :: [] ∧ t.crRoom 0 = true) := by decide +kernel
/-! ## Commands of jobs -/

/-- A state with one job, which takes its command from its slot. -/
def one (j : Job) : State := jobs up [j]

/-- It, once its unit has taken its command. -/
def begun (j : Job) : State := (one j).begin_ j

/-- A computation answers its state, without a fault. -/
def clean {α : Type} (r : State × Option α) : Bool := r.2.isNone

theorem test_meets_ListsAndSwitchesComplete :
    (let j := job 127 .control (slot 0 [])
     ((one j).advance 0).takeCmd j.id 0 = .cmd (begun j) j j.slot ∧ zeros j.slot 24 40 = true) ∧
    (let j := job 127 .control (slot 1 [(24, 8, 2 ^ 64 - 64), (32, 4, 65535)])
     ((one j).advance 0).job j.id = some j ∧ ((one j).advance 0).mayIssue j = true ∧ slotOpcode j.slot = 1 ∧ j.inList = false ∧
     fld j.slot 24 8 % 64 = 0 ∧ fld j.slot 32 4 = 65535 ∧ zeros j.slot 36 28 = true) := by decide +kernel

/-- Two copy jobs: the first holds the unit, the second is of a higher level. -/
def contest : State :=
  { jobs (upWith [(Od.Q_PRIO 96, 0), (Od.Q_PRIO 111, 15)]) [job 96 .copy (slot 0x10 []), job 111 .copy (slot 0x10 [])] with
    sched := { Reset.sched with running := [(.copy, ⟨96, 0⟩)] } }

theorem test_meets_ListsAndSwitchesComplete_switch :
    let h := job 96 .copy (slot 0x10 [])
    let k := job 111 .copy (slot 0x10 [])
    let v := (contest.advance 0).atPoint .copy
    v.between .copy = true ∧ v.onUnit .copy = some h ∧ h.wants .copy = true ∧ v.incomingOf .copy = none ∧
    h.liveAt .copy 0 0 = some (0, 0) ∧ v.job h.id = some h ∧ v.pd (SchedUnit.domain .copy) ≠ 3 ∧
    v.bestFor .copy (fun o => o.id != h.id && v.level h < v.level o) = some k ∧
    (let s : State := { contest with sched := { Reset.sched with incoming := [(.copy, k.id, 7)] } }
     (s.advance 7).incomingOf .copy = some (k.id, 7) ∧ (s.advance 7).job k.id = some k ∧ 7 ≤ s.now + 7 ∧
     (s.advance 6).incomingOf .copy = some (k.id, 7) ∧ s.now + 6 < 7) := by decide +kernel

/-- A job of a neural quarter whose domain closes, at the most bytes that are live there. -/
theorem test_meets_ListsAndSwitchesComplete_closing :
    let h := job 63 (.nq 3) (slot 0x10 [])
    let s : State := { jobs (upWith [(Od.PD_STATE 7, 3)]) [h] with sched := { Reset.sched with running := [(.nq 3, h.id)] } }
    let v := (s.advance 0).atPoint (.nq 3)
    v.between (.nq 3) = true ∧ v.onUnit (.nq 3) = some h ∧ h.wants (.nq 3) = true ∧ v.incomingOf (.nq 3) = none ∧
    h.liveAt (.nq 3) 0x10000 0x40000 = some (0x10000, 0x40000) ∧ v.job h.id = some h ∧ savesOnClose (.nq 3) = true ∧
    v.pd (SchedUnit.domain (.nq 3)) = 3 := by decide +kernel

/-- Translation off, no compressed block. -/
theorem plain_of {u : State} (h : u.on (Od.XLAT_EN 0) = false) (o : u.opRunning .memTrain = false)
    (m : u.mem.metaDram = []) : u.plain 0 :=
  ⟨rfl, h, o, fun a => by simp [State.code, m, mgetD, mget]⟩

/-- A FILL of 5 bytes at the end of usable DRAM. -/
def fillJob : Job := job 96 .copy (slot 0x12 [(24, 8, 0x3FDFFFFFB), (32, 4, 5), (36, 4, 0x44332211)])

theorem test_meets_FillWritesThePattern :
    ((one fillJob).advance 0).upsets [] |>.takes fillJob.id 5 0x12 (begun fillJob) fillJob fillJob.slot := by
  unfold State.takes
  decide +kernel

theorem test_meets_FillWritesThePattern_plain :
    fillJob.done = 0 ∧ fld fillJob.slot 41 1 ≤ 1 ∧ zeros fillJob.slot 42 22 = true ∧ (begun fillJob).plain fillJob.client ∧
    0x3FDFFFFFB + 5 ≤ (begun fillJob).usable ∧
    (let r := (begun fillJob).probe 0 0x3FDFFFFFB 5 true
     r.2.1 = none ∧ clean (r.1.fillSpan 0 0x3FDFFFFFB 0x44332211 none 0 5) = true) :=
  ⟨by decide, by decide +kernel, by decide +kernel, plain_of (by decide +kernel) (by decide +kernel) (by decide +kernel),
    by decide +kernel, by decide +kernel⟩

/-- It stops before its first byte. -/
theorem test_meets_FillWritesThePattern_cut :
    let r := (begun fillJob).probe 0 0x3FDFFFFFB 5 true
    copyPoint * 0 < 5 ∧ r.2.1 = none ∧ clean (r.1.fillSpan 0 0x3FDFFFFFB 0x44332211 none 0 (copyPoint * 0)) = true := by
  decide +kernel

/-- A COPY of 300 bytes between ranges that touch. -/
def copyJob : Job := job 96 .copy (slot 0x10 [(24, 8, 0x100), (32, 8, 0x22C), (40, 4, 300)])

theorem test_meets_CopyMovesTheBytes :
    (((one copyJob).advance 0).upsets []).takes copyJob.id 5 0x10 (begun copyJob) copyJob copyJob.slot := by
  unfold State.takes
  decide +kernel

theorem test_meets_CopyMovesTheBytes_plain :
    copyJob.done = 0 ∧ (begun copyJob).plain copyJob.client ∧ (begun copyJob).mem.badDram = [] ∧ 0x22C + 300 ≤ (begun copyJob).usable ∧
    0x100 + 300 ≤ 0x22C ∧ fld copyJob.slot 44 1 = 0 ∧ fld copyJob.slot 46 1 ≤ 1 ∧ zeros copyJob.slot 47 17 = true ∧
    (let r := (begun copyJob).copyChecks 0 0x100 300 0x22C 300 0 false
     clean r = true ∧ clean (r.1.copySpan 0 0x100 0 0x22C 0 300 false none 0 300) = true) :=
  ⟨by decide, plain_of (by decide +kernel) (by decide +kernel) (by decide +kernel), by decide +kernel⟩

/-- It stops before its first byte. -/
theorem test_meets_CopyMovesTheBytes_cut :
    let r := (begun copyJob).copyChecks 0 0x100 300 0x22C 300 0 false
    copyPoint * 0 < 300 ∧ clean r = true ∧
    clean (r.1.copySpan 0 0x100 0 0x22C 0 300 false none 0 (copyPoint * 0)) = true := by decide +kernel

/-- A COPY_2D of two rows of 3 bytes. -/
def copy2dJob : Job :=
  job 96 .copy (slot 0x11 [(24, 8, 0x100), (32, 8, 0x200), (40, 4, 3), (44, 4, 2), (48, 4, 2), (52, 4, 3)])

theorem test_meets_Copy2dMovesTheRows :
    (((one copy2dJob).advance 0).upsets []).takes copy2dJob.id 5 0x11 (begun copy2dJob) copy2dJob copy2dJob.slot := by
  unfold State.takes
  decide +kernel

theorem test_meets_Copy2dMovesTheRows_plain :
    copy2dJob.done = 0 ∧ (begun copy2dJob).plain copy2dJob.client ∧ (begun copy2dJob).mem.badDram = [] ∧ zeros copy2dJob.slot 59 5 = true ∧
    (3 : Nat) ≤ 3 ∧ 0x100 + ((2 - 1) * 2 + 3) ≤ 0x200 ∧
    (let r := (begun copy2dJob).copyChecks 0 0x100 5 0x200 6 0 false
     clean r = true ∧ clean (r.1.copySpan 0 0x100 2 0x200 3 3 false none 0 6) = true) :=
  ⟨by decide, plain_of (by decide +kernel) (by decide +kernel) (by decide +kernel), by decide +kernel⟩

theorem test_meets_MemoryStaysCanonical :
    Memory.wf (one fillJob).mem = true ∧ ∃ t, exec (.fill 0 fillJob.id ⟨none, []⟩) (one fillJob) = .next t :=
  ⟨by decide +kernel, _, rfl⟩

/-! ## Ingest -/

/-- Stream 15 of 8-bit luma of 4 × 2 pixels in rows, of a kind, with two buffers at 0x2000, and CSI-2 port 3. -/
def streaming (kind fmt : Nat) : State :=
  upWith [(Od.IS_EN 15, 1), (Od.IS_KIND 15, kind), (Od.IS_FMT 15, fmt), (Od.IS_WIDTH 15, 4), (Od.IS_HEIGHT 15, 2),
    (Od.IS_PITCH 15, 64), (Od.IS_NBUF 15, 2), (Od.IS_BUF_VA 15, 0x20000), (Od.IS_BUF_STRIDE 15, 65536), (Od.IS_REC_VA 15, 0x1000),
    (Od.IS_PORT 15, 3), (Od.IS_VC 15, 3), (Od.CSI_EN 3, 1), (Od.IS_FLAG 15, 255), (Od.IS_REL_FLAG 15, 0xFFFF)]

def putJob : Job := job 111 .copy (slot 0x16 [(24, 1, 15), (32, 8, 0x4000), (40, 4, 64)])

theorem test_meets_IngestPutPublishes :
    let s := jobs (streaming 2 1) [putJob]
    let u := s.begin_ putJob
    let r := u.putRows 15 (fld putJob.slot 40 4)
    engineOf putJob.id.q.val = 5 ∧ ((s.advance 0).upsets []).takeCmd putJob.id 0x16 = .cmd u putJob putJob.slot ∧
    fld putJob.slot 24 1 = 15 ∧ putJob.inList = false ∧ putJob.done = 0 ∧
    clean (u.moveSpan 0 (fld putJob.slot 32 8) r.1 (u.streamBuf 15) r.2.1 r.2.2.1 0 (r.2.2.1 * r.2.2.2)) = true ∧
    u.get (Od.IS_FLAG 15) ≠ 0xFFFF := by decide +kernel

/-- In a list. -/
theorem test_meets_IngestPutPublishes_list :
    let s := jobs (streaming 2 1) [{ putJob with inList := true }]
    s.ingestBad 0 putJob.slot = none ∧ s.bufFree 15 = true ∧ s.putRunning 15 putJob.id = false := by decide +kernel

def header (ecc : HeaderEcc) (dtype : BitVec 6) : CsiHeader := { vc := 3, dtype := dtype, ecc := ecc }

/-- The stream with an open frame at a row. -/
def opened (row : Nat) : State :=
  { streaming 1 0x2B with ingest := [(15, { f := 0, frame := some ⟨row, row, 0, 0, false, false, false, false⟩, dropping := false })] }

theorem test_meets_CsiPacketsBuildFrames :
    let s := streaming 1 0x2B
    let full : State := { s.set (Od.IS_REL_FLAG 15) 254 with ingest := [(15, { f := 2, frame := none, dropping := false })] }
    s.csiOn 3 = true ∧ (header .corrected 0).ecc ≠ .uncorrectable ∧ otherShort (header .corrected 0) = false ∧
    otherShort (header .good 2) = true ∧ s.csiStream 3 2 = none ∧ s.csiStream 3 3 = some 15 ∧ (s.stream 15).frame = none ∧
    s.bufFree 15 = true ∧ full.csiOn 3 = true ∧ (full.stream 15).frame = none ∧ full.bufFree 15 = false ∧
    (opened 1).csiStream 3 3 = some 15 ∧ ((opened 1).stream 15).frame = some ⟨1, 1, 0, 0, false, false, false, false⟩ ∧
    ((opened 2).stream 15).frame.isSome = true ∧ (header .good 0x2B).dtype.toNat = (opened 1).get (Od.IS_FMT 15) ∧
    (opened 1).get (Od.IS_FLAG 15) ≠ 0xFFFF := by decide +kernel

/-! ## Networks -/

/-- DRAM that holds bytes at an address. -/
def holding (s : State) (l : List (Nat × List Byte)) : State :=
  l.foldl (fun s e => s.setCells (.dram e.1) e.2) s

/-- Client 0's translation is on: its page 0 is DRAM, its page 1 the first of partition 0 of the Millpond. -/
def mapped (s : State) : State :=
  { s.set (Od.XLAT_EN 0) 1 with mem := { s.mem with cache := [(0, 2 ^ 63 + 2 ^ 60), (1, 2 ^ 63 + 2 ^ 61 + 2 ^ 60)] } }

/-- An EWADD of one signed byte, a 3 × 3 CONV of one, and a band-out CONV to pipe 3. -/
def ewAdd : List Byte :=
  put 128 [(0, 1, 4), (2, 1, 0x11), (3, 1, 0x10), (22, 2, 1), (24, 1, 1), (25, 1, 1), (32, 8, 0x10000), (40, 2, 1), (42, 2, 1),
    (44, 2, 1), (46, 2, 1), (48, 8, 0x10040), (56, 2, 1), (58, 2, 1), (60, 2, 1), (62, 2, 1), (64, 8, 0x10080), (72, 2, 1),
    (74, 2, 1), (76, 2, 1), (78, 2, 1), (88, 4, 1), (92, 4, 1)]
def conv (band outFmt outVa outC outPitch : Nat) : List Byte :=
  put 128 [(0, 1, 1), (1, 1, band), (2, 1, 0x11), (3, 1, outFmt), (4, 1, 3), (5, 1, 3), (6, 1, 0x11), (7, 1, 0x11), (8, 1, 0x11),
    (9, 1, 0x11), (22, 2, outC), (24, 1, 1), (25, 1, 1), (32, 8, 0x10000), (40, 2, 1), (42, 2, 1), (44, 2, 1), (46, 2, 1),
    (48, 8, 0x10040), (64, 8, outVa), (72, 2, 1), (74, 2, 1), (76, 2, outC), (78, 2, outPitch), (80, 8, 0x10100)]

/-- A job of a network of descriptors at 0x1000, and its state with pipe 3 of one pixel. -/
def netJob (op n : Nat) : Job := job 63 (if op == 0x18 then .dibber else .nq 3) (slot op [(24, 8, 0x1000), (32, 2, n)])
def netState (j : Job) (l : List (List Byte)) : State :=
  mapped (holding (jobs (upWith [(Od.PIPE_EN 3, 1), (Od.MR_EN 3, 1), (Od.H_ACTIVE 3, 1), (Od.V_ACTIVE 3, 1)]) [j])
    (l.zipIdx.map (fun e => (0x1000 + 128 * e.2, e.1))))

theorem test_meets_NetworksRun :
    let j := netJob 0x10 2
    let s := netState j [conv 0 0x10 0x10080 1 1, ewAdd]
    let u := s.begin_ j
    let run := u.runNetwork 0x1000 2 (fun i => netEnv 0 (i + 1 == 2)) j.netPos
    engineOf j.id.q.val = 1 ∧ ((s.advance 0).upsets []).takeCmd j.id 0x10 = .cmd u j j.slot ∧ netBad j.slot 4096 = none ∧
    fld j.slot 24 8 = 0x1000 ∧ fld j.slot 32 2 = 2 ∧ (run none).2.2 = .ok ∧ (run none).1.job j.id = u.job j.id ∧
    (run (some 1)).2.2 = .stop ⟨1, 0, []⟩ ∧ (run (some 1)).1.job j.id = u.job j.id := by decide +kernel

theorem test_meets_NetworksRun_dibber :
    let j := netJob 0x18 2
    let s := netState j [conv 0 0x10 0x10080 1 1, conv 0 0x10 0x10080 1 1]
    let u := s.begin_ j
    let run := u.runNetwork 0x1000 2 (fun i => dibEnv 0 (i + 1 == 2)) j.netPos
    engineOf j.id.q.val = 1 ∧ ((s.advance 0).upsets []).takeCmd j.id 0x18 = .cmd u j j.slot ∧ netBad j.slot 16 = none ∧
    (run none).2.2 = .ok ∧ (run none).1.job j.id = u.job j.id ∧
    (run (some 0)).2.2 = .stop ⟨0, 0, conv 0 0x10 0x10080 1 1⟩ := by decide +kernel

theorem test_meets_NetworksRun_band :
    let j := netJob 0x18 2
    let s := netState j [conv 0 0x10 0x10080 1 1, conv 0x10 0x20 3 3 0]
    let u := s.begin_ j
    let r := u.runNetwork 0x1000 2 (fun i => dibEnv 0 (i + 1 == 2)) j.netPos none
    ((s.advance 0).upsets []).takeCmd j.id 0x18 = .cmd u j j.slot ∧ netBad j.slot 16 = none ∧
    r.2.2 = .bands (conv 0x10 0x20 3 3 0) ∧ r.1.job j.id = u.job j.id ∧ (r.1.pipe 3).frozen = false := by decide +kernel

/-- Session 7 on queue 63 with an SV_LEAVE. -/
def leaving : Job := queued 63 (put 64 [(0, 1, 0x22), (6, 2, 0xFFFF), (24, 1, 7), (25, 1, 255)])
def session : State := jobs (upWith [(Od.SV_ENABLE 7, 1), (Od.SV_QUEUE 7, 63), (Od.SV_QUARTER 7, 3)]) [leaving]

theorem test_meets_ServingStepsFinishTheirJobs :
    let u := (session.advance 0).upsets []
    let q := u.get (Od.SV_QUEUE 7)
    let r := u.takeStep q (.nq 3) [] (u.jobsOf q).length
    let d := r.1.decideStep 7 r.2
    let run : StepRun := ⟨d.2, d.1, false, 0⟩
    let w := r.1.putServe 7 { r.1.serve 7 with step := some run }
    u.alive = true ∧ u.on (Od.SV_ENABLE 7) = true ∧ u.stepRun 7 = none ∧ u.nextInLine q = some leaving ∧
    u.place (u.get (Od.SV_QUARTER 7)) = some (.nq 3) ∧ u.outranked (.nq 3) (u.prio q) leaving.id = false ∧
    u.startAhead (.nq 3) q = false ∧ r.2.map (·.seq) = [255] ∧ w.stepRun 7 = some run ∧
    d.2.map (·.job) = [leaving.id] ∧ (w.job leaving.id).any (w.mayIssue ·) = true := by
  decide +kernel

/-- A step in progress of that session. -/
theorem test_meets_ServingStepsFinishTheirJobs_goes_on :
    let h : Job := { job 63 (.nq 3) (slot 0x22 [(24, 1, 7), (25, 1, 255)]) with slot := leaving.slot }
    let run : StepRun := ⟨[{ job := h.id, slot := h.slot, verdict := .leave }], ⟨[], [], [], 0, 0⟩, true, 0⟩
    let s : State := { jobs session [h] with serving := [(7, { Reset.serving with step := some run })] }
    let u := (s.advance 0).upsets []
    u.alive = true ∧ u.on (Od.SV_ENABLE 7) = true ∧ u.stepRun 7 = some run ∧
    run.jobs.head?.bind (fun a => u.job a.job) = some h ∧ u.mayIssue h = true := by decide +kernel
/-! ## Signed images -/

/-- A P-384 key, an image of no body and its signature, and a kernel container's signature, made outside the model. -/
def keyN : Nat :=
  0x08d999057ba3d2d969260045c55b97f089025959a6f434d651d207d19fb96e9e4fe0e86ebe0e64f85b96a9c75295df618e80f1fa5b1b3cedb7bfe8dffd6dba74b275d875bc6cc43e904e505f256ab4255ffd43e94d39e22d61501e700a940e80
def imageSig : Nat :=
  0x077a41d4606ffa1464793c7e5fdc7d98cb9d3910202dcd06bea4f240d3566da6b408bbae5026580d02d7e5c70500c831cd77903f0d95670f69a58b9f2a988ce902c3ee0c51d65666c53faa4da1e5513971c4a1a4ce9e4270c44e24e5e5ff7758
def kernelSig : Nat :=
  0x077a41d4606ffa1464793c7e5fdc7d98cb9d3910202dcd06bea4f240d3566da6b408bbae5026580d02d7e5c70500c83192eeac10ad34953be8dae1d2a1e2f3ac834fb455c64167e7510cc1b556ceb7739f536ff38a41c85d31a903f34b6f968e

def image : List Byte := put 16 [(0, 4, 0x484B3734), (11, 1, 7)] ++ toBe 96 keyN ++ zeroBytes 16 ++ toBe 96 imageSig

theorem test_meets_BootStartsOrRefusesFirmware_signed :
    let v : Verify := { image := image, source := .nor, slot := none }
    let s : State := ({ starting with boot := { starting.boot with verifying := some v } } : State).set Od.FW_MIN_MAJOR 7
    let s := s.setDom Od.FW_KEY_HASH (sha384 (toBe 96 keyN))
    s.boot.verifying = some v ∧ s.verifyImage v.image = Ab.OK ∧ (s.set Od.FW_MIN_MAJOR 8).verifyImage v.image = Ab.AUTH := by
  decide +kernel

/-- A compute kernel: its module, 16 lowered bytes and its manifest. -/
def container : List Byte :=
  put 192 [(0, 4, 0x4B434E31), (4, 2, 1), (6, 1, 2), (8, 4, 64), (12, 4, 28), (16, 4, 96), (20, 4, 16), (24, 4, 112), (28, 4, 72),
    (32, 4, 0x00740000), (36, 1, 0xA1), (64, 4, 0x07230203), (68, 4, 0x10000), (84, 4, 0x2000F), (88, 4, 5),
    (112, 4, 0x4B4D4631), (116, 2, 1), (138, 2, 64), (148, 2, 1), (152, 4, 64), (156, 4, 64)] ++
  toBe 96 keyN ++ toBe 96 kernelSig

/-- Bytes at addresses as a canonical map. -/
def cellsOf (l : List (Byte × Nat)) : Map Byte := l.filterMap (fun e => if e.1 = 0 then none else some (e.2, e.1))
def loadJob (n : Nat) : Job := job 15 .raster (slot 0x10 [(24, 8, 0x1000), (32, 4, n), (36, 1, 15)])
def loadState (n : Nat) : State :=
  { (jobs up [loadJob n]).setDom (Od.KC_KEY_HASH 3) (sha384 (toBe 96 keyN)) with
    mem := { Reset.mem with dram := cellsOf (container.zipIdx 0x1000) } }

theorem test_meets_KernelsLoadAndUnload_container : ((loadState 384).rd 0 0x1000 384).2 = (container, none) := by decide +kernel

theorem test_meets_KernelsLoadAndUnload :
    let s := loadState 384
    let u := s.begin_ (loadJob 384)
    engineOf (loadJob 384).id.q.val = 0 ∧ (s.advance 0).takeCmd (loadJob 384).id 0x10 = .cmd u (loadJob 384) (loadJob 384).slot ∧
    loadKernelBad (loadJob 384).slot = none ∧ (u.rd 0 0x1000 384).1.containerRefused 0 15 container = 0 ∧
    (let x := ((loadState 64).begin_ (loadJob 64)).rd 0 0x1000 64
     x.2.2 = none ∧ x.1.containerRefused 0 15 x.2.1 = 1) := by decide +kernel

/-- A kernel of a stage in slot 15 of client 0, with its module. -/
def kernel (stage : Nat) (unloading : Bool) : Kernel :=
  { stage := stage, spirv := sectionBytes container 8, codeBytes := 4096, wgLanes := 64, vregs := 1, sharedBytes := 0, privateBytes := 0,
    wcetPerGroup := 0, maxTile := 0, aMax := 64, sMax := 64, cheap := [], ranges := [], unloading := unloading, waiting := if unloading then [⟨15, 0⟩] else [], users := [] }
def withKernels (s : State) (l : List (Nat × Kernel)) : State := { s with raster := { s.raster with kernels := l } }
def unloadJob : Job := job 15 .raster (slot 0x11 [(24, 1, 15)])

theorem test_meets_KernelsLoadAndUnload_unload :
    let s := jobs up [unloadJob]
    let r := withKernels s [(15, kernel 2 false)]
    let u := s.begin_ unloadJob
    let w := r.begin_ unloadJob
    let x := withKernels (jobs up [{ unloadJob with blocked := true }]) [(15, kernel 2 true)]
    engineOf unloadJob.id.q.val = 0 ∧ (s.advance 0).takeCmd unloadJob.id 0x11 = .cmd u unloadJob unloadJob.slot ∧
    (r.advance 0).takeCmd unloadJob.id 0x11 = .cmd w unloadJob unloadJob.slot ∧ fld unloadJob.slot 24 1 = 15 ∧
    zeros unloadJob.slot 25 39 = true ∧ u.kernel 0 15 = none ∧ w.kernel 0 15 = some (kernel 2 false) ∧
    (x.advance 0).kernel 0 15 = some (kernel 2 true) ∧ (kernel 2 true).unloading = true ∧ (kernel 2 true).users = [] := by
  decide +kernel
/-! ## Passes and dispatches -/

/-- A pass of 8 × 8 pixels of 8 bits at 0x8000, cleared to a byte and stored, or tiled and without targets, with one draw of no vertices at 0x2000. -/
def passDesc (tiled : Nat) : List Byte :=
  put 192 ([(0, 1, tiled), (2, 2, 8), (4, 2, 8), (8, 8, 0x2000), (16, 4, 1)] ++
    if tiled = 0 then [(1, 1, 1), (32, 8, 0x8000), (40, 2, 1), (42, 1, 1), (43, 1, 6), (48, 1, 0x5A)] else [])
def drawRecord : List Byte := put 64 [(4, 1, 15), (5, 1, 0xFF), (12, 4, 1), (32, 8, 0x4000), (44, 2, 8), (46, 2, 8)]
def passJob : Job := job 15 .raster (slot 0x12 [(24, 8, 0x1000)])
def passState (tiled : Nat) (j : Job) : State :=
  let s := jobs (upWith [(Od.PART_ACT_BANKS 0, 24), (Od.PART_ACT_BANKS 15, 8), (Od.PART_ACT_FIRST_BANK 15, 24),
    (Od.PART_ACT_KIND 15, 2)]) [j]
  let dram := cellsOf ((passDesc tiled).zipIdx 0x1000 ++ drawRecord.zipIdx 0x2000)
  withKernels { s with mem := { Reset.mem with dram := dram } } [(15, kernel 0 false)]

theorem test_meets_PassesAndDispatchesComplete :
    let s := passState 0 passJob
    let u := s.begin_ passJob
    let r := (u.binRelease passJob.id).rd 0 0x1000 192
    let x := r.1.passRun passJob (PassRun.start (passDesc 0))
    ((s.advance 0).upsets []).takeCmd passJob.id 0x12 = .cmd u passJob passJob.slot ∧ passJob.done = 0 ∧
    fld passJob.slot 24 8 % 64 = 0 ∧ zeros passJob.slot 32 32 = true ∧ r.2 = (passDesc 0, none) ∧
    r.1.passBad 0 (passDesc 0) = none ∧ (passOf (passDesc 0)).tiled = false ∧ (x none).2.2 = (.ok, none) ∧
    (x none).1.job passJob.id = u.job passJob.id ∧ (x (some 0)).2.2.1 = .ok ∧ (x (some 0)).2.2.2.isSome = true ∧
    (x (some 0)).1.job passJob.id = u.job passJob.id := by decide +kernel

theorem test_meets_PassesAndDispatchesComplete_tiled :
    let s := passState 1 passJob
    let u := s.begin_ passJob
    let r := (u.binRelease passJob.id).rd 0 0x1000 192
    let h : State := { r.1 with raster := { r.1.raster with binHolder := some passJob.id } }
    let x := h.passRun passJob (PassRun.start (passDesc 1)) none
    ((s.advance 0).upsets []).takeCmd passJob.id 0x12 = .cmd u passJob passJob.slot ∧ r.2 = (passDesc 1, none) ∧
    r.1.passBad 0 (passDesc 1) = none ∧ (passOf (passDesc 1)).tiled = true ∧ r.1.binTaken passJob.id = false ∧
    r.1.binWaiting = [] ∧ x.2.2 = (.ok, none) ∧ x.1.job passJob.id = u.job passJob.id := by decide +kernel

/-- The bin store is held by another job. -/
theorem test_meets_PassesAndDispatchesComplete_waits :
    let s := passState 1 passJob
    let s : State := { s with raster := { s.raster with binHolder := some ⟨14, 0⟩ },
                              qs := { s.qs with jobs := s.qs.jobs ++ [{ job 14 .raster (slot 0 []) with blocked := true }] } }
    let u := s.begin_ passJob
    let r := (u.binRelease passJob.id).rd 0 0x1000 192
    ((s.advance 0).upsets []).takeCmd passJob.id 0x12 = .cmd u passJob passJob.slot ∧ r.2 = (passDesc 1, none) ∧
    r.1.passBad 0 (passDesc 1) = none ∧ r.1.binTaken passJob.id = true := by decide +kernel

theorem test_meets_PassesAndDispatchesComplete_acquire :
    let j : Job := { passJob with blocked := true }
    let i : Job := { passJob with blocked := false }
    let s := passState 1 j
    let w := PassRun.start (passDesc 1)
    let r : State := { s with raster := { s.raster with binQueue := [j.id], works := [(j.id, .pass w)] } }
    let t := (({ r with raster := { r.raster with binHolder := some j.id, binQueue := [] } } : State).putJob i).begin_ i
    let x := t.passRun i w none
    r.binWaiting = [j.id] ∧ r.job j.id = some j ∧ r.workOf j.id = some (.pass w) ∧ r.binHeld = false ∧ r.mayIssue i = true ∧
    x.2.2 = (.ok, none) ∧ x.1.job j.id = some i := by decide +kernel

/-- A DISPATCH of 2 × 1 × 1 workgroups. -/
def dispatchJob : Job := job 15 .raster (slot 0x13 [(24, 1, 15), (28, 4, 2), (32, 4, 1), (36, 4, 1), (40, 8, 0x4000)])

theorem test_meets_PassesAndDispatchesComplete_dispatch :
    let s := withKernels (jobs up [dispatchJob]) [(15, kernel 2 false)]
    let u := s.begin_ dispatchJob
    let v := u.binRelease dispatchJob.id
    let r := v.argBlock 0 0x4000 0 40 [kernel 2 false]
    let x := r.1.dispatchRun dispatchJob (kernel 2 false) dispatchJob.slot r.2.1 ⟨0, none⟩
    ((s.advance 0).upsets []).takeCmd dispatchJob.id 0x13 = .cmd u dispatchJob dispatchJob.slot ∧ dispatchJob.done = 0 ∧
    v.dispatchBad dispatchJob dispatchJob.slot = none ∧ v.kernelFor dispatchJob 15 = some (kernel 2 false) ∧ r.2.2 = .ok ∧
    (x none).2.2 = .ok ∧ (x none).1.job dispatchJob.id = u.job dispatchJob.id := by decide +kernel

theorem test_meets_PassesAndDispatchesComplete_dispatch_cut :
    let s := withKernels (jobs up [dispatchJob]) [(15, kernel 2 false)]
    let v := (s.begin_ dispatchJob).binRelease dispatchJob.id
    let r := v.argBlock 0 0x4000 0 40 [kernel 2 false]
    let x := r.1.dispatchRun dispatchJob (kernel 2 false) dispatchJob.slot r.2.1 ⟨0, none⟩ (some 0)
    (match x.2.2 with
      | .stop .. => true
      | _ => false) = true ∧ x.1.job dispatchJob.id = some dispatchJob := by decide +kernel
/-! ## Vision and the solver -/

def visionJob (op : Nat) (l : List (Nat × Nat × Nat)) : Job := job 79 .vision (slot op l)
def detectJob : Job := visionJob 0x10 [(24, 2, 0x8000), (32, 8, 0x1000), (40, 1, 8)]
def trackJob : Job := visionJob 0x11 [(24, 2, 0x8000), (26, 1, 1), (32, 8, 0x1000)]
def matchJob : Job := visionJob 0x12 [(24, 8, 0x3000), (32, 8, 0x4000), (40, 2, 1), (42, 2, 1), (44, 8, 0x5000)]

/-- Stream 15 with its flag 255, and its record at 0x1000 + 32 × 15. -/
def visionState (j : Job) : State :=
  { jobs (upWith [(Od.VS_OWNER 15, 0), (Od.VS_FLAG 15, 255)]) [j] with
    mem := { Reset.mem with dram := cellsOf ((put 32 [(0, 8, 0x8000), (8, 2, 1), (10, 2, 4096)]).zipIdx 0x11E0) } }

/-- What VX_DETECT and VX_TRACK need before they are divided into units. -/
def visionOk (j : Job) (op : Nat) : Bool :=
  let s := visionState j
  let u := s.begin_ j
  let r := (u.putJob { j with poisons := u.streamFlags 0 j.slot }).rdRecords 0 op (fld j.slot 32 8) (streamsOf j.slot)
  engineOf j.id.q.val == 2 && decide ((s.advance 0).takeCmd j.id op = .cmd u j j.slot) && visionBad j.slot == none &&
  unitsOf j.slot != [] && u.streamFlagsOk 0 j.slot && streamsOf j.slot == [15] && u.get (Od.VS_OWNER 15) == 0 &&
  r.2.2 == (none, none)

theorem test_meets_VisionCommandsRunAsUnits :
    visionOk detectJob 0x10 = true ∧ visionOk trackJob 0x11 = true ∧
    (let s := visionState matchJob
     (s.advance 0).takeCmd matchJob.id 0x12 = .cmd (s.begin_ matchJob) matchJob matchJob.slot ∧ visionBad matchJob.slot = none ∧
     unitsOf matchJob.slot ≠ []) := by decide +kernel

/-- The last unit of a VX_MATCH of one record with one. -/
def matching : State :=
  let s := jobs up [{ matchJob with blocked := true }]
  { s with vision := { works := [⟨matchJob.id, matchJob.slot, [], [.match_]⟩], current := some (matchJob.id, .match_), holds := [] } }

theorem test_meets_VisionCommandsRunAsUnits_end :
    let r := ((matching.advance 0).upsets []).atPoint .vision
    let y : VisionWork := ⟨matchJob.id, matchJob.slot, [], [.match_]⟩
    let e := r.unitEffect y 0 .match_
    r.vision.current = some (matchJob.id, .match_) ∧ r.visionWorks.find? (fun z => z.job == matchJob.id) = some y ∧
    r.job matchJob.id = some { matchJob with blocked := true } ∧ e.2 = none ∧ y.units.length ≤ 1 ∧
    ((e.1.job matchJob.id).map (·.phase)) = some .started := by decide +kernel

def solverJob (op : Nat) (l : List (Nat × Nat × Nat)) : Job := job 87 .solver (slot op l)

/-- An upload into slot 3 of one pose, two points and two observations: the second point is seen twice by no pose. -/
def uploadJob : Job :=
  solverJob 0x10 [(24, 1, 3), (25, 1, 1), (26, 2, 2), (28, 4, 2), (32, 8, 0x1000), (40, 8, 0x10000), (48, 8, 0), (56, 8, 0x2000)]
def uploadState : State :=
  { jobs up [uploadJob] with mem := { Reset.mem with dram := [(0x1004, 1)] } }

theorem test_meets_SolverCommandsComplete :
    let s := uploadState
    let u := s.begin_ uploadJob
    let es := [some (0, 0), some (1, 0)]
    let n := storeBytes 1 2 2 (posePairs 0 [(0, 0), (1, 0)])
    let v1 := u.placesBad 0 [(32, 0x1000, 8, false), (56, 0x2000, 72, false)]
    let v2 := v1.1.rd 0 0x1000 8
    let v3 := v2.1.placesBad 0 [(40, 0x10000, n, true)]
    let v4 := v3.1.rd 0 0x2000 72
    let v5 := v4.1.fillStore 0 0x10000 n
    engineOf uploadJob.id.q.val = 3 ∧ ((s.advance 0).upsets []).takeCmd uploadJob.id 0x10 = .cmd u uploadJob uploadJob.slot ∧
    solverBad uploadJob.slot = none ∧ u.uploadOk 0 3 = true ∧ v1.2 = (none, none) ∧ v2.2.2 = none ∧
    (List.range 2).map (fun i => obsOf 1 2 (fld v2.2.1 (4 * i) 4)) = es ∧ obsAscending (es.filterMap (·)) = true ∧
    v3.2 = (none, none) ∧ v4.2.2 = none ∧ v5.2 = none := by decide +kernel

/-- A resident structure of one fixed pose and one point, and a POSE_ONLY solve of two iterations with one update of the point. -/
def resident : Structure :=
  { store := 0x10000, p := 1, q := 1, o := 0, fixed := 1, obs := [], poses := [[1, 2, 3, 4, 5, 6]], points := [[7, 8, 9]],
    meas := [] }
def solveJob : Job :=
  solverJob 0x11 [(24, 1, 3), (25, 1, 2), (26, 1, 2), (28, 1, 15), (40, 8, 0x1000), (48, 4, 1), (52, 8, 0x5000)]
def solveState : State :=
  { jobs up [solveJob] with mem := { Reset.mem with dram := [(0x1003, 0x80)] }, solver := { slots := [(3, resident)], works := [] } }

theorem test_meets_SolverCommandsComplete_solve :
    let u := solveState.begin_ solveJob
    let v1 := u.placesBad 0 [(40, 0x1000, 32, false), (52, 0x5000, 36, true)]
    let v2 := v1.1.rd 0 0x1000 32
    let y := resident.updates v2.2.1 1
    let r := BaRun.run (v2.1.baArgs solveJob.slot) 2 none (BaRun.start y.1)
    let v3 := v2.1.wr 0 0x5000 r.1.output
    engineOf solveJob.id.q.val = 3 ∧
    ((solveState.advance 0).upsets []).takeCmd solveJob.id 0x11 = .cmd u solveJob solveJob.slot ∧ solveJob.done = 0 ∧
    solverBad solveJob.slot = none ∧ u.ownStructure 0 3 = some resident ∧ v1.2 = (none, none) ∧ v2.2.2 = none ∧ y.2 = none ∧
    v2.1.deadlinePassed solveJob solveJob.slot = false ∧ r.2 = true ∧ v3.2 = none ∧
    (v3.1.fillStore 0 0x10000 (storeBytes 1 1 0 (v2.1.get (Od.ST_PAIRS 3)))).2 = none ∧
    (BaRun.run (v2.1.baArgs solveJob.slot) 2 (some 1) (BaRun.start y.1)).2 = false := by decide +kernel

/-- A dense solve of one unknown and one row: 2 × x = 6. -/
def denseJob : Job := solverJob 0x12 [(24, 2, 1), (28, 1, 15), (36, 4, 1), (40, 8, 0x1000), (48, 8, 0x2000), (56, 8, 0x5000)]
def denseState : State :=
  { jobs up [denseJob] with mem := { Reset.mem with dram := [(0x1003, 0x40), (0x2002, 0xC0), (0x2003, 0x40)] } }

theorem test_meets_SolverCommandsComplete_dense :
    let u := denseState.begin_ denseJob
    let v1 := u.placesBad 0 [(40, 0x1000, 4, false), (48, 0x2000, 4, false), (56, 0x5000, 4, true)]
    let v2 := v1.1.rd 0 0x1000 4
    let v3 := v2.1.rd 0 0x2000 4
    let r := denseSolve (v3.1.get Od.SLV_PIVOT_FLOOR) 1 1 0 false (fun i => fld v2.2.1 (4 * i) 4) (fun i => fld v3.2.1 (4 * i) 4)
    engineOf denseJob.id.q.val = 3 ∧
    ((denseState.advance 0).upsets []).takeCmd denseJob.id 0x12 = .cmd u denseJob denseJob.slot ∧
    solverBad denseJob.slot = none ∧ v1.2 = (none, none) ∧ v2.2.2 = none ∧ v3.2.2 = none ∧
    v3.1.deadlinePassed denseJob denseJob.slot = false ∧ (v3.1.wr 0 0x5000 (f32Bytes r.1)).2 = none ∧
    r = ([0x40400000], false, 0) := by decide +kernel

theorem test_meets_SolverCommandsComplete_deadline :
    let j := { solveJob with startTick := 0 }
    let s := { jobs (upWith [(Od.TICK_EN, 1), (Od.TICK_COUNT, 16)]) [j] with solver := { slots := [(3, resident)], works := [] } }
    (s.advance 0).job j.id = some j ∧ engineOf j.id.q.val = 3 ∧ j.phase = .started ∧ s.alive = true ∧
    slotOpcode ((s.advance 0).currentCmd j) = 0x11 ∧ (s.advance 0).deadlinePassed j ((s.advance 0).currentCmd j) = true := by
  decide +kernel
/-! ## The watchdogs, Millrace and the display -/

theorem test_meets_WatchdogsExpire :
    (let s : State := { upWith [(Od.GOV_STATE, 1), (Od.GOV_TICKS, 255)] with watch := { Reset.watch with gov := true, govTicks := 255 } }
     (s.advance 0).governorDue = true) ∧ (up.advance 0).governorDue = false ∧
    (∀ n ∈ [0, 1], let s := upWith [(Od.SCARE_EN, 1), (Od.SCARE_STAGE, n)]
      s.scareRuns = true ∧ s.get Od.SCARE_STAGE = n ∧ s.watch.scareAt + s.watch.scareMs * 1000000 ≤ s.now + 1000000000 ∧
      s.now + 999999999 < s.watch.scareAt + s.watch.scareMs * 1000000) ∧
    up.scareRuns = false := by decide +kernel

/-- A PRESENT aimed at frame f that shows `layerCfg` on layer 0 of pipe 3, ready. -/
def readyAt (f : Option Nat) : Ready := { layer := 0, cfg := layerCfg, target := f, at_ := 0 }

theorem test_meets_FramesBegin :
    (let s := fetching []
     let n := ceilDiv (s.frameNs 3).1 (s.frameNs 3).2
     s.beginsFrame 3 (s.now + n) ∧ s.opRunning .memTrain = false ∧ (s.pipe 3).tF + n ≤ s.now + n ∧ ¬ (s.pipe 3).tF + n ≤ s.now + (n - 1)) ∧
    (let s := (fetching []).putPipe 3 { (fetching []).pipe 3 with stopping := true }
     s.framing 3 = true ∧ (s.pipe 3).stopping = true) ∧ up.framing 0 = false := by
  unfold State.beginsFrame
  decide +kernel

def bandJob : Job := { netJob 0x18 2 with blocked := true }
def bandLayer : BandOut :=
  { job := bandJob.id, desc := conv 0x10 0x20 3 3 0, pose := [], newest := [], wrote := 0, missed := 0 }

/-- Pipe 3 runs a frame of two bands with a band-out layer bound. -/
def bandPipe (bands : List BandState) : State :=
  { mapped (jobs (upWith [(Od.PIPE_EN 3, 1), (Od.MR_EN 3, 1), (Od.H_ACTIVE 3, 64), (Od.V_ACTIVE 3, 64), (Od.PCLK_KHZ 3, 100000),
      (Od.MR_SLOTS 3, 4), (Od.V_BP 3, 64)]) [bandJob]) with
    pipes := [(3, { Reset.pipe with scanning := true, bands := bands, bandOut := some bandLayer })] }

theorem test_meets_BandsRunOrAreFilled :
    (let s := bandPipe [.complete, .pending]
     let u := (s.advance 0).catchUp 3
     u.bandJob 3 = some (bandLayer, bandJob) ∧ firstOpen (u.pipe 3).bands = some 1 ∧ (u.pipe 3).scanning = true ∧
     (u.pipe 3).bands.getD 1 .pending = .pending ∧ u.bandSlotFree 3 1 = true ∧ u.now < u.bandDeadline 3 1 ∧
     u.mayIssue { bandJob with blocked := false } = true ∧ s.on (Od.MR_LATCH 3) = false) ∧
    (let s := bandPipe [.complete, .inProgress]
     let u := (s.advance (s.bandDeadline 3 1)).catchUp 3
     (u.bandJob 3).map (fun e => (e.1, e.2.id)) = some (bandLayer, bandJob.id) ∧ firstOpen (u.pipe 3).bands = some 1 ∧
     (u.pipe 3).bands.getD 1 .pending = .inProgress ∧ u.now = u.bandDeadline 3 1 ∧
     (u.bandRowsOf 3 1 bandLayer bandJob.client).2.2 = none) := by decide +kernel

theorem test_meets_BandsRunOrAreFilled_late :
    (∀ fz ∈ [true, false], ∀ fb ∈ [true, false],
      let s := (bandPipe [.complete, .pending]).putPipe 3
        { (bandPipe [.complete, .pending]).pipe 3 with
          frozen := fz, mr := { Reset.mr with fbValid := fb }, good := some ([], { Reset.mr with fbValid := fb }) }
      let u := (s.advance (s.bandDeadline 3 1)).catchUp 3
      let x := u.pipe 3
      firstOpen x.bands = some 1 ∧ x.scanning = true ∧ u.bandDeadline 3 1 = u.now ∧ x.blank = false ∧ x.frozen = fz ∧
      x.mr.fbValid = fb) ∧
    firstOpen ((((bandPipe [.complete, .complete]).advance 0).catchUp 3).pipe 3).bands = none := by decide +kernel

theorem test_meets_LinkEventsReport :
    (upWith [(Od.PIPE_IF 3, 3), (Od.LINK_STATE 3, 2)]).dpPipe 0 = some 3 ∧
    (upWith [(Od.PIPE_IF 3, 3), (Od.LINK_STATE 3, 2)]).get (Od.LINK_STATE 3) = 2 ∧
    (upWith [(Od.PIPE_IF 3, 3), (Od.LINK_STATE 3, 1)]).dpPipe 0 = some 3 ∧ up.dpPipe 1 = none := by decide +kernel

def displayJob (op : Nat) (l : List (Nat × Nat × Nat)) : Job := job 95 .display (slot op l)

/-- A PRESENT of a 64 × 64 surface on layer 3 of pipe 3, which its client owns. -/
def presentJob (flags : Nat) : Job :=
  displayJob 0x10 [(24, 1, 3), (25, 1, 3), (26, 1, flags), (27, 1, 255), (28, 4, 7), (32, 8, 0x1000), (40, 2, 64), (42, 2, 64),
    (44, 2, 1), (46, 1, 3), (52, 2, 255)]
def displayState (j : Job) (l : List (Nat × Nat)) : State :=
  jobs (upWith ([(Od.PIPE_OWNER 3, 0), (Od.PIPE_EN 3, 1), (Od.H_ACTIVE 3, 64), (Od.V_ACTIVE 3, 64), (Od.PCLK_KHZ 3, 100000)] ++ l)) [j]
def takesB (s : State) (j : Job) (eng op : Nat) : Bool :=
  engineOf j.id.q.val == eng && decide ((s.advance 0).takeCmd j.id op = .cmd (s.begin_ j) j j.slot)

theorem test_meets_DisplayCommandsComplete :
    (∀ fl ∈ [0x00, 0x01, 0x41],
      let s := displayState (presentJob fl) []
      let u := s.begin_ (presentJob fl)
      takesB s (presentJob fl) 4 0x10 = true ∧ u.presentBad (presentJob fl) (presentJob fl).slot = none ∧
      (if (presentCfg (presentJob fl) (presentJob fl).slot).enable then
        u.probeSurface (presentCfg (presentJob fl) (presentJob fl).slot) else (u, none)).2 = none) := by decide +kernel

theorem test_meets_DisplayCommandsComplete_link :
    (∀ kind ∈ [0, 1], ∀ len ∈ [1, 12],
      let j := displayJob 0x11 [(24, 1, 3), (25, 1, kind), (26, 1, 5), (27, 1, len), (28, 4, 9)]
      let s := displayState j [(Od.PIPE_IF 3, 2), (Od.PIPE_EN 3, 0)]
      let u := s.begin_ j
      takesB s j 4 0x11 = true ∧ u.xferBad j j.slot = none ∧ u.mayTransfer 3 = true) ∧
    (let j := displayJob 0x12 [(24, 1, 3), (25, 1, 255), (26, 1, 255), (32, 8, 0x1000)]
     let s := displayState j []
     let u := s.begin_ j
     takesB s j 4 0x12 = true ∧ u.ownsPipe 0 3 = true ∧ zeros j.slot 27 5 = true ∧ zeros j.slot 40 24 = true ∧
     (u.rd (u.pipeClient 3) 0x1000 (4 * (255 + 1))).2.2 = none) := by decide +kernel

theorem test_meets_ScanEndsTheFrame :
    (∀ n ∈ [0, 2], ∀ un ∈ [true, false],
      let s := (fetching [(Od.LINK_STATE 3, n)]).putPipe 3 { (fetching []).pipe 3 with unchecked := un, chk := true }
      (s.pipe 3).scanning = true ∧ (s.pipe 3).tF + s.linesNs 3 (s.vTotal 3) ≤ s.now + s.linesNs 3 (s.vTotal 3) ∧
      s.now + (s.linesNs 3 (s.vTotal 3) - 1) < (s.pipe 3).tF + s.linesNs 3 (s.vTotal 3) ∧ s.get (Od.LINK_STATE 3) = n ∧
      (s.pipe 3).unchecked = un ∧ (s.pipe 3).chk = true ∧ s.dsiCommand 3 = false ∧
      (s.pipe 3).abandoned = false ∧ (s.pipe 3).frozen = false ∧ (s.pipe 3).blank = false ∧ s.opRunning .memTrain = false) ∧
    (up.pipe 0).scanning = false := by decide +kernel

theorem test_meets_UnderrunsAndChecksAreCounted :
    ∀ m ∈ [0, 1], let s := fetching [(Od.UNDERRUN_MODE 3, m)]
      (s.pipe 3).scanning = true ∧ (s.pipe 3).abandoned = false ∧ scanNo 64 63 63 < 64 * 64 ∧
      (s.advance 0).activeAt 3 ≤ s.now ∧ (s.advance 0).runLength 3 64 (min 9 (64 * 64 - scanNo 64 63 63)) (scanNo 64 63 63) 0 = 1 ∧
      s.get (Od.UNDERRUN_MODE 3) = m ∧ s.dsiCommand 3 = false := by decide +kernel

theorem test_meets_UnderrunsAndChecksAreCounted_check :
    let c : ToCompare := { frame := 1, crc := 5, counted := true }
    let s := up.putPipe 3 { Reset.pipe with toCompare := some c }
    (s.pipe 3).toCompare = some c ∧ c.counted = true ∧ ((some (5 : BitVec 32)).map (·.toNat)).getD 0 = c.crc ∧
    ((some (6 : BitVec 32)).map (·.toNat)).getD 0 ≠ c.crc ∧ (up.pipe 3).toCompare = none := by decide +kernel

/-! ## Leat -/

/-- A master with device 7 behind its port 1. -/
def leatUp (l : List (Nat × Nat)) : State :=
  upWith ([(Od.LP_EN 1, 1), (Od.LP_STATE 1, 2), (Od.CAS_STATE, 2), (Od.CAS_MEMBERS, 0x81), (Od.CAS_ROUTE 7, 2)] ++ l)

/-- A packet from device 7, and its bytes as the first on their link. -/
def from7 (typ : Nat) (data : List Byte) : Pkt :=
  { typ := typ, dst := 0, bcast := false, src := 7, xfer := 5, slot := 0, addr := 0, ctick := 0, offset := 0, total := data.length,
    data := data }
def wire (p : Pkt) : List Byte := withTrailer p.bytes 0

/-- The packet arrives whole at port 1. -/
def arrives (s : State) (p : Pkt) : Bool :=
  decide (((s.advance 0).pruneXfers.receive 1 (wire p)).2 = some p) && !p.bcast && fld (wire p) 0 1 == p.typ && p.dst == s.devId

theorem test_meets_LinkEventsReport_leat :
    (let s := leatUp [(Od.LP_STATE 1, 1)]
     s.alive = true ∧ s.domOn 10 = true ∧ s.on (Od.LP_EN 1) = true ∧ s.get (Od.LP_STATE 1) ≠ 2) ∧
    (leatUp []).get (Od.LP_STATE 1) = 2 ∧ (leatUp []).inCascade = true ∧ (leatUp []).get (Od.CAS_ROUTE 7) = 1 + 1 := by decide +kernel

theorem test_meets_PacketsAreCheckedAndForwarded :
    let u := ((leatUp []).advance 0).pruneXfers
    u.portUp 1 = true ∧ u.alive = true ∧ fld [1] 0 1 = PT.DATA ∧ ([1] : List Byte).length < 40 ∧
    (let b := withTrailer (from7 PT.DONE []).bytes 1
     fld b 0 1 = PT.DONE ∧ fld b (b.length - 4) 2 ≠ mgetD u.leat.rxSeq 1 0) ∧
    (let b := withTrailer ((from7 PT.DONE []).bytes ++ [0]) 0
     fld b 0 1 = PT.DONE ∧ 40 ≤ b.length ∧ crc32 (b.take (b.length - 8)) = fld b (b.length - 8) 4 ∧
     fld b (b.length - 4) 2 = mgetD u.leat.rxSeq 1 0 ∧ pktLayoutOk b = false) ∧
    (let p := { from7 PT.DATA [1, 2] with dst := 3 }
     let r := u.receive 1 (wire p)
     r.2 = some p ∧ p.dst ≠ r.1.devId ∧ p.bcast = false ∧ (wire p).length ≥ 40) ∧
    (let s := leatUp [(Od.CAS_ROUTE 3, 1), (Od.LP_STATE 0, 2)]
     let r := (s.advance 0).pruneXfers.receive 1 (wire { from7 PT.DATA [1, 2] with dst := 3 })
     r.2 = some { from7 PT.DATA [1, 2] with dst := 3 } ∧ r.1.routeOf 3 = some 0 ∧ r.1.portUp 0 = true) := by decide +kernel

/-- A transfer to device 7 by a Leat job, waiting for its DONE. -/
def leatJob (op : Nat) (l : List (Nat × Nat × Nat)) : Job := job 111 .copy (slot op l)
def fetchJob : Job :=
  { leatJob 0x15 [(24, 8, 0x3000), (32, 8, 0x2000), (40, 4, 300), (44, 1, 7), (48, 2, 3)] with blocked := true }
def leatXfer (fetch : Option Nat) (db : Option (Nat × Nat)) : LeatXfer :=
  { id := 5, job := fetchJob.id, members := [7], waiting := [7], fetchVa := fetch, doorbell := db, code := 3, ctick := 0 }
def transferring (fetch : Option Nat) (db : Option (Nat × Nat)) : State :=
  { jobs (leatUp []) [fetchJob] with leat := { Reset.leat with xfers := [leatXfer fetch db] } }

theorem test_meets_ReceivedPacketsTakeEffect :
    (let p := { from7 PT.DATA (zeroBytes 63 ++ [9]) with addr := 0x2001 }
     let v := ((leatUp []).advance 0).pruneXfers.receive 1 (wire p)
     arrives (leatUp []) p = true ∧ v.1.rxGot p < rxFailed ∧ (v.1.wr 0 p.addr p.data).2 = none ∧
     p.total ≤ v.1.rxGot p + p.data.length ∧ v.1.routeOf p.src = some 1 ∧ v.1.portUp 1 = true ∧
     p.addr + p.data.length ≤ v.1.usable) ∧
    (let p := { from7 PT.READ_DATA (zeroBytes 43 ++ [9]) with offset := 256, total := 300 }
     let s := transferring (some 0x2000) none
     let v := (s.advance 0).pruneXfers.receive 1 (wire p)
     arrives s p = true ∧ v.1.xferOf p.xfer = some (leatXfer (some 0x2000) none) ∧ v.1.job fetchJob.id = some fetchJob ∧
     p.src ∈ (leatXfer (some 0x2000) none).waiting ∧ fetchJob.phase = .started ∧
     (v.1.wr fetchJob.client (0x2000 + p.offset) p.data).2 = none) := by decide +kernel

theorem test_meets_ReceivedPacketsTakeEffect_doorbell :
    (let p := from7 PT.DOORBELL [127, 0, 3, 0]
     let v := ((leatUp []).advance 0).pruneXfers.receive 1 (wire p)
     let r := v.1.ring (v.1.get (Od.Q_OWNER 127)) 127 3
     arrives (leatUp []) p = true ∧ r.2 ≠ Ab.OK ∧ r.1.routeOf p.src = some 1 ∧ r.1.portUp 1 = true) ∧
    (let s := leatUp [(Od.Q_ENABLE 127, 1), (Od.Q_RING_SLOTS 127, 16), (Od.Q_RING_BASE 127, 0x1000)]
     let p := from7 PT.DOORBELL [127, 0, 3, 0]
     let v := (s.advance 0).pruneXfers.receive 1 (wire p)
     arrives s p = true ∧ (v.1.ring (v.1.get (Od.Q_OWNER 127)) 127 3).2 = Ab.OK) ∧
    (let p := { from7 PT.READ_REQ [] with addr := 0x2000, total := 300 }
     let v := ((leatUp []).advance 0).pruneXfers.receive 1 (wire p)
     arrives (leatUp []) p = true ∧ (leatUp []).opRunning .memTrain = false ∧ (v.1.rd 0 p.addr p.total).2.2 = none ∧ (256, 44) ∈ pieces256 p.total) := by decide +kernel

/-- A follower of device 7. -/
def following (l : List (Nat × Nat)) : State := leatUp ([(Od.CAS_ROLE, 1), (Od.CAS_MASTER, 7)] ++ l)
def tickFrom (n : Nat) : Pkt := { from7 PT.TICK [] with bcast := true, ctick := n }
def arrivesAll (s : State) (p : Pkt) : Bool :=
  decide (((s.advance 0).pruneXfers.receive 1 (wire p)).2 = some p) && p.bcast && fld (wire p) 0 1 == p.typ && p.src != s.devId

theorem test_meets_TickPacketsAndSeamsSettle :
    (∀ n ∈ [9, 2 ^ 48 - 5], let s : State := { following [(Od.CAS_STATE, 0)] with leat := { Reset.leat with configured := some (0x81, n) } }
     arrivesAll s (tickFrom 9) = true ∧ s.on Od.CAS_ROLE = true ∧ s.get Od.CAS_MASTER = 7 ∧ s.leat.configured = some (0x81, n) ∧
     subMod 48 9 n < 2 ^ 47) ∧
    (let s := following [(Od.TICK_COUNT, 4), (Od.CAS_TICK_OFFSET, 5)]
     ∀ n ∈ [9, 2 ^ 48 - 1],
       let v := (s.advance 0).pruneXfers.receive 1 (wire (tickFrom n))
       arrivesAll s (tickFrom n) = true ∧ v.1.leat.configured = none ∧ v.1.inCascade = true ∧ v.1.leat.resync = false ∧
       v.1.cascadeTick = 9) ∧
    (let s : State := { following [] with tick := { Reset.tick with since := 1, lastAt := 7 } }
     s.alive = true ∧ s.on Od.CAS_ROLE = true ∧ s.inCascade = true ∧ s.tick.since ≠ 0 ∧ s.tick.lastAt + 100000 ≤ s.now + 100007 ∧
     s.leat.timeoutFor ≠ some s.tick.lastAt ∧ s.leat.tickPktAt = none) := by decide +kernel

/-- Slot 7 takes seams of 64 bytes of device 7 into the Millpond, with flag 255. -/
def seamed : State :=
  mapped (leatUp [(Od.SEAM_EN 7, 1), (Od.SEAM_SRC 7, 7), (Od.SEAM_BYTES 7, 64), (Od.SEAM_VA 7, 0x12000), (Od.SEAM_FLAG 7, 255),
    (Od.SEAM_DL_BUCKET 7, 9), (Od.CUR_BUCKET, 9), (Od.TICK_EN, 1), (Od.TICK_COUNT, 3)])
def seamAt (s : State) (p : Pkt) : Place :=
  { off := 0, va := s.get (Od.SEAM_VA p.slot) + p.ctick % 2 * s.get (Od.SEAM_BYTES p.slot) + p.addr, n := p.data.length,
    write := true, dram := false }
def seamPkt (k n : Nat) : Pkt := { from7 PT.SEAM (zeroBytes 32 ++ [9]) with slot := k, addr := 31, ctick := n, offset := 0 }

theorem test_meets_TickPacketsAndSeamsSettle_seams :
    (∀ n ∈ [3, 4],
      let p := seamPkt 7 n
      let v := (seamed.advance 0).pruneXfers.receive 1 (wire p)
      arrives seamed p = true ∧ p.slot ≤ 7 ∧ v.1.on (Od.SEAM_EN p.slot) = true ∧ v.1.get (Od.SEAM_SRC p.slot) = p.src ∧
      p.addr + p.data.length = v.1.get (Od.SEAM_BYTES p.slot) ∧ v.1.seamClosed p.slot p.ctick = false ∧
      subMod 48 p.ctick v.1.cascadeTick ≤ 1 ∧ v.1.rxGot p < rxFailed ∧ p.total ≤ v.1.rxGot p + p.data.length ∧
      (v.1.placed 0 (seamAt v.1 p)).2 = .ok ∧
      ((v.1.placed 0 (seamAt v.1 p)).1.wr 0 (seamAt v.1 p).va p.data).2 = none ∧ v.1.get (Od.SEAM_FLAG p.slot) < 256) ∧
    (let s := seamed.set (Od.SEAM_VA 7) 0x2000
     let p := seamPkt 7 3
     let v := (s.advance 0).pruneXfers.receive 1 (wire p)
     arrives s p = true ∧ v.1.seamClosed 7 3 = false ∧ (v.1.placed 0 (seamAt v.1 p)).2 = .elsewhere) ∧
    (∀ k ∈ [6, 8], arrives seamed (seamPkt k 3) = true ∧ (seamed.on (Od.SEAM_EN 6) = false)) ∧
    (let p := { seamPkt 7 3 with addr := 32 }
     arrives seamed p = true ∧ ¬ p.addr + p.data.length ≤ seamed.get (Od.SEAM_BYTES p.slot)) ∧
    (let s : State := { seamed with tick := { Reset.tick with since := 1 } }
     s.alive = true ∧ s.on (Od.SEAM_EN 7) = true ∧ s.on Od.TICK_EN = true ∧ s.tick.since ≠ 0 ∧ s.seamTicks 7 = []) := by
  decide +kernel

def donePkt (kind code : Nat) : Pkt := from7 PT.DONE (toLe 2 kind ++ toLe 2 code ++ zeroBytes 12)

theorem test_meets_LeatTransfersBeginAndEnd_done :
    (∀ e ∈ [(0, 0), (1, 0), (2, 1), (3, 0), (4, 5), (5, 0), (6, 0)],
      let p := donePkt e.1 e.2
      let s := transferring none none
      let v := (s.advance 0).pruneXfers.receive 1 (wire p)
      arrives s p = true ∧ fld p.data 0 2 = e.1 ∧ fld p.data 2 2 ≠ Ab.DOMAIN_CLOSING ∧ fld p.data 2 2 ≠ Ab.DOMAIN_OFF ∧
      v.1.xferOf p.xfer = some (leatXfer none none) ∧ (leatXfer none none).waiting = [p.src] ∧
      v.1.job fetchJob.id = some fetchJob ∧ v.1.leat.refused = []) := by decide +kernel

theorem test_meets_LeatTransfersBeginAndEnd_retry :
    let r : RefusedPkt := { port := 1, pkt := { from7 PT.DOORBELL [127, 0, 3, 0] with src := 0, dst := 7 }.bytes, tries := 2, tick := 0 }
    let x := { leatXfer none none with waiting := [] }
    let s : State := { jobs (leatUp [(Od.TICK_COUNT, 1)]) [fetchJob] with leat := { Reset.leat with xfers := [x], refused := [r] } }
    s.leat.refused = [r] ∧ (s.advance 0).pruneXfers.leat = s.leat ∧ s.xferOf (pktOf r.pkt).xfer = some x ∧
    r.tick ≠ s.get Od.TICK_COUNT ∧ (pktOf r.pkt).dst ∉ x.waiting := by decide +kernel

/-- A reply to DISCOVER from follower 7, and a master that gathers it. -/
def replyOf (stepping : Nat) : FormReply :=
  { dev := 7, deviceId := 0, stepping := stepping, follower := true, state := 0, port := 1, inPort := 0, ring := false }
def forming (stepping : Nat) : State :=
  { leatUp [(Od.CAS_STATE, 1), (Od.CAS_EXPECT, 0x80)] with leat := { Reset.leat with formAt := some 0, replies := [replyOf stepping] } }

theorem test_meets_FormationRuns :
    (let p := { from7 PT.DISCOVER [] with bcast := true }
     ((following []).advance 0).receive 1 (wire p) = ((((following []).advance 0).receive 1 (wire p)).1, some p) ∧
     (following []).on Od.CAS_ROLE = true) ∧
    (let p := { from7 PT.DISCOVER_REPLY [0, 0, 0, 0, 0, 7, 1, 0, 0] with bcast := true }
     fld (wire p) 0 1 = PT.DISCOVER_REPLY ∧ (((following []).advance 0).receive 1 (wire p)).2 = some p ∧
     (((forming 0).advance 0).receive 1 (wire p)).2 = some p ∧ (forming 0).on Od.CAS_ROLE = false ∧
     (forming 0).get Od.CAS_STATE = 1 ∧ (forming 0).leat.formAt.isSome = true) ∧
    (let p := from7 PT.CONFIG ([7, 0x81] ++ [0, 3, 3, 3, 3, 3, 3, 2])
     arrives (following []) p = true ∧ fld p.data 0 1 ≠ lossMark ∧ fld p.data 1 1 ≠ 0) ∧
    (let p := { from7 PT.CONFIG ([254, 0x80] ++ List.replicate 8 3) with bcast := true }
     arrivesAll (following []) p = true ∧ fld p.data 0 1 = lossMark ∧ (following []).inCascade = true ∧
     bitOf (fld p.data 1 1) 7 = true ∧ ((following []).routeOf 7).isSome = true) ∧
    (forming 0).leat.formAt = some 0 ∧ 0 + 10000000 ≤ (forming 0).now + 10000000 ∧
    (forming ((forming 0).get Od.STEPPING)).formBad (forming ((forming 0).get Od.STEPPING)).leat.replies = false ∧
    (forming ((forming 0).get Od.STEPPING + 1)).formBad (forming ((forming 0).get Od.STEPPING + 1)).leat.replies = true := by
  decide +kernel

theorem test_meets_LeatTransfersBeginAndEnd :
    (∀ dev ∈ [7, 0xFF],
      let j := leatJob 0x13 [(24, 8, 0x1000), (32, 8, 2 ^ 40 - 300), (40, 4, 300), (44, 1, dev), (45, 1, 1), (46, 1, 127), (48, 2, 9)]
      let s := jobs (leatUp []) [j]
      let u := s.begin_ j
      takesB s j 5 0x13 = true ∧ fld j.slot 45 1 = 1 ∧ fld j.slot 46 1 ≤ 127 ∧ zeros j.slot 47 1 = true ∧ zeros j.slot 50 14 = true ∧
      u.others = [7] ∧ fld j.slot 32 8 + fld j.slot 40 4 ≤ 2 ^ 40 ∧ (u.rd 0 0x1000 300).2.2 = none) ∧
    (let j := leatJob 0x14 [(24, 8, 0x1000), (32, 4, 64), (36, 4, 2), (40, 4, 256), (44, 1, 7), (45, 1, 7), (52, 4, 64)]
     let s := jobs (leatUp []) [j]
     let u := s.begin_ j
     takesB s j 5 0x14 = true ∧ fld j.slot 45 1 ≤ 7 ∧ zeros j.slot 46 2 = true ∧ zeros j.slot 56 8 = true ∧ 7 ∈ u.others ∧
     (u.bandRowBytes 0 0x1000 256 64 2).2.2 = none) ∧
    (let j := leatJob 0x15 [(24, 8, 2 ^ 40 - 300), (32, 8, 0x2000), (40, 4, 300), (44, 1, 7)]
     let s := jobs (leatUp []) [j]
     let u := s.begin_ j
     takesB s j 5 0x15 = true ∧ zeros j.slot 45 19 = true ∧ 7 ∈ u.others ∧
     fld j.slot 24 8 + fld j.slot 40 4 ≤ 2 ^ 40 ∧ (u.probe 0 0x2000 300 true).2.1 = none) := by decide +kernel

/-! ## The test port -/

theorem test_meets_TestPortReads :
    up.boot.phase ≠ .unpowered ∧ up.tap.taken = false ∧ up.get Od.BSCAN_IR ≠ 0x12 ∧
    (upWith [(Od.BSCAN_IR, 0x12)]).get Od.BSCAN_IR = 0x12 ∧ (upWith [(Od.BSCAN_IR, 0x12)]).tap.taken = false := by decide +kernel

theorem test_meets_TestPortTakesTheBalls :
    (let s : State := { up with tap := { Reset.tap with taken := true } }
     s.boot.phase ≠ .unpowered ∧ s.tap.taken = true ∧ s.boot.porst = true ∧ offLimits goodBoard = false ∧
     offLimits { goodBoard with timely := false } = true) ∧
    (let s : State := { State.reset with tap := { Reset.tap with taken := true } }
     s.boot.phase ≠ .unpowered ∧ s.tap.taken = true ∧ s.boot.porst = false) := by decide +kernel
end Sys2Proof.Tests
end

/-! SUPPORT. The display engine's frame start leaves the tick alone: what it does before and after it judges the edge of pipe 0
(the end of the scan, the bands, the latch of the layers, the release of buffers) keeps the clock, the boot, the tick and every
object below index 0x3000. -/

namespace Sys2Proof.Machine

/-! ## The part of the state that judges an edge -/

/-- What a tick is judged by, and counted in. -/
structure TickView where
  now : Nat
  tB : Nat
  boot : BootSt
  tick : TickSt
  objects : {k : Nat // k < 0x300000} → Nat

/-- Time, boot, tick, and the objects below index 0x3000: those of the tick have index 0x2100. -/
def State.tickView (s : State) : TickView := ⟨s.now, s.tB, s.boot, s.tick, fun k => s.get k.val⟩

theorem State.get_of_tickView {s t : State} (h : t.tickView = s.tickView) {k : Nat} (hk : k < 0x300000) : t.get k = s.get k :=
  congrFun (congrArg TickView.objects h) ⟨k, hk⟩

theorem State.tick_of_tickView {s t : State} (h : t.tickView = s.tickView) : t.tick = s.tick := congrArg TickView.tick h

theorem State.now_of_tickView {s t : State} (h : t.tickView = s.tickView) : t.now = s.now := congrArg TickView.now h

theorem State.tB_of_tickView {s t : State} (h : t.tickView = s.tickView) : t.tB = s.tB := congrArg TickView.tB h

theorem State.on_of_tickView {s t : State} (h : t.tickView = s.tickView) {k : Nat} (hk : k < 0x300000) : t.on k = s.on k := by
  unfold State.on
  rw [State.get_of_tickView h hk]

theorem State.alive_of_tickView {s t : State} (h : t.tickView = s.tickView) : t.alive = s.alive := by
  have hb : t.boot = s.boot := congrArg TickView.boot h
  unfold State.alive
  rw [hb]

/-! ## Updates that keep it -/

theorem State.tickView_set (s : State) {k : Nat} (v : Nat) (hk : 0x300000 ≤ k) : (s.set k v).tickView = s.tickView := by
  have hobj : (s.set k v).tickView.objects = s.tickView.objects := by
    funext j
    have hj := j.property
    exact s.get_set_other v (show j.val ≠ k by omega)
  exact congrArg (TickView.mk s.now s.tB s.boot s.tick) hobj

theorem State.tickView_incBy (s : State) {k : Nat} (n : Nat) (hk : 0x300000 ≤ k) : (s.incBy k n).tickView = s.tickView :=
  s.tickView_set _ hk

theorem State.tickView_inc (s : State) {k : Nat} (hk : 0x300000 ≤ k) : (s.inc k).tickView = s.tickView := s.tickView_set _ hk

/-- Every memory operation keeps it: it writes objects of index 0x9000 and above. -/
theorem memClosed_tickView (v : TickView) : MemClosed (fun _ => True) (fun t => t.tickView = v) where
  set t _ x hk h := (t.tickView_set x (by have := hk.ge; omega)).trans h
  mem _ _ h := h
  log _ _ _ _ h := h
  spend _ h := h

@[simp] theorem State.putPipe_tickView (s : State) (p : Nat) (x : Pipe) : (s.putPipe p x).tickView = s.tickView := rfl
@[simp] theorem State.putJob_tickView (s : State) (j : Job) : (s.putJob j).tickView = s.tickView := rfl
@[simp] theorem State.finishJob_tickView (s : State) (j : Job) (st : Nat) (d : List Byte) :
    (s.finishJob j st d).tickView = s.tickView := rfl
@[simp] theorem State.atPoint_tickView (s : State) (u : SchedUnit) : (s.atPoint u).tickView = s.tickView := rfl
@[simp] theorem State.emit_tickView (s : State) (o : Out) : (s.emit o).tickView = s.tickView := rfl
@[simp] theorem State.spend_tickView (s : State) : s.spend.tickView = s.tickView := rfl
@[simp] theorem State.settleFifo_tickView (s : State) (p : Nat) : (s.settleFifo p).tickView = s.tickView := rfl

@[simp] theorem State.post_tickView (s : State) (cls code index unit arg : Nat) :
    (s.post cls code index unit arg).tickView = s.tickView := (memClosed_tickView s.tickView).post _ _ _ _ _ rfl

@[simp] theorem State.upsets_tickView (s : State) (l : List Upset) : (s.upsets l).tickView = s.tickView :=
  (memClosed_tickView s.tickView).upsets l rfl

@[simp] theorem State.rdThrough_tickView (s : State) (cl va n : Nat) : (s.rdThrough cl va n).1.tickView = s.tickView :=
  (memClosed_tickView s.tickView).rdThrough trivial va n rfl

@[simp] theorem State.rdPart_tickView (s : State) (p o n : Nat) : (s.rdPart p o n).1.tickView = s.tickView :=
  (memClosed_tickView s.tickView).rdPart p o n rfl

@[simp] theorem State.wrPart_tickView (s : State) (p o : Nat) (l : List Byte) : (s.wrPart p o l).tickView = s.tickView :=
  (memClosed_tickView s.tickView).wrPart p o l rfl

@[simp] theorem State.gatherN_tickView (s : State) (cls code index unit arg count : Nat) :
    (s.gatherN cls code index unit arg count).tickView = s.tickView := by
  unfold State.gatherN
  dsimp only
  split
  · exact (memClosed_tickView s.tickView).postN _ _ _ _ _ _ rfl
  · split
    · rfl
    · rfl

theorem State.when_tickView {s : State} {c : Bool} {f : State → State} (hf : ∀ t, (f t).tickView = t.tickView) :
    (s.when c f).tickView = s.tickView :=
  State.when_ind (fun t => t.tickView = s.tickView) rfl (fun t h => (hf t).trans h)

theorem State.ite_tickView {c : Prop} [Decidable c] {a b : State} {v : TickView} (ha : a.tickView = v) (hb : b.tickView = v) :
    (if c then a else b).tickView = v := by
  split
  · exact ha
  · exact hb

theorem State.foldl_tickView {α : Type} {f : State → α → State} (hf : ∀ t a, (f t a).tickView = t.tickView) (l : List α)
    (s : State) : (l.foldl f s).tickView = s.tickView :=
  foldl_ind (fun t => t.tickView = s.tickView) f (fun t a h => (hf t a).trans h) l s rfl

/-- The same of a fold that carries a state and a value. -/
theorem State.foldl_fst_tickView {α β : Type} {f : State × β → α → State × β} (hf : ∀ x a, (f x a).1.tickView = x.1.tickView)
    (l : List α) (x : State × β) : (l.foldl f x).1.tickView = x.1.tickView :=
  foldl_ind (fun y => y.1.tickView = x.1.tickView) f (fun y a h => (hf y a).trans h) l x rfl

/-! ## Jobs and their ends -/

@[simp] theorem State.faultJob_tickView (s : State) (j : Job) (cause struct off va : Nat) :
    (s.faultJob j cause struct off va).tickView = s.tickView :=
  State.when_tickView (fun t => t.post_tickView _ _ _ _ _)

@[simp] theorem State.endCmd_tickView (s : State) (id : JobId) (status : Nat) (detail : List Byte) (fl : Nat) :
    (s.endCmd id status detail fl).tickView = s.tickView := by
  unfold State.endCmd
  split
  · rfl
  · refine State.ite_tickView rfl ?_
    extract_lets k t
    have ht : t.tickView = s.tickView := by
      unfold t
      split
      · exact s.atPoint_tickView _
      · rfl
    exact State.ite_tickView ((t.putJob_tickView _).trans ht) ((t.finishJob_tickView _ _ _).trans ht)

@[simp] theorem State.faultCmd_tickView (s : State) (id : JobId) (cause struct off va : Nat) :
    (s.faultCmd id cause struct off va).tickView = s.tickView := by
  unfold State.faultCmd
  split
  · rfl
  · split <;> simp

@[simp] theorem State.endUnshown_tickView (s : State) (id : JobId) : (s.endUnshown id).tickView = s.tickView :=
  s.endCmd_tickView _ _ _ _

@[simp] theorem State.releaseBuf_tickView (s : State) (b : Shown) : (s.releaseBuf b).tickView = s.tickView := by
  unfold State.releaseBuf
  split <;> simp

@[simp] theorem State.countLayer_tickView (s : State) (l : Layer) : (s.countLayer l).tickView = s.tickView :=
  (State.when_tickView (fun t => t.tickView_inc (by decide))).trans (s.tickView_set _ (by decide))

@[simp] theorem State.endBands_tickView (s : State) (b : BandOut) : (s.endBands b).tickView = s.tickView := by
  unfold State.endBands
  split <;> simp

@[simp] theorem State.settleBandOut_tickView (s : State) (p : Nat) : (s.settleBandOut p).tickView = s.tickView := by
  unfold State.settleBandOut
  dsimp only
  split
  · rfl
  · split
    · rfl
    · split
      · split <;> simp
      · rfl

/-! ## Bands -/

@[simp] theorem State.waitBandJob_tickView (s : State) (p : Nat) : (s.waitBandJob p).tickView = s.tickView := by
  unfold State.waitBandJob
  split
  · split
    · split <;> simp
    · rfl
  · rfl

@[simp] theorem State.missBand_tickView (s : State) (p : Nat) : (s.missBand p).tickView = s.tickView := by
  unfold State.missBand
  dsimp only
  split <;> simp

@[simp] theorem State.setFlag_tickView (s : State) (fence : Bool) (id v : Nat) : (s.setFlag fence id v).tickView = s.tickView := by
  obtain ⟨qs, h⟩ := s.setFlag_eq fence id v
  rw [h]
  rfl

@[simp] theorem State.tryPose_tickView (s : State) (p k v : Nat) (moved : Option (BitVec 32)) :
    (s.tryPose p k v moved).1.tickView = s.tickView := by
  have hread : (s.poseOf p v).1.tickView = s.tickView := s.rdThrough_tickView _ _ _
  cases moved with
  | none => exact hread
  | some m => exact (State.setFlag_tickView ..).trans hread

@[simp] theorem State.latchPose_tickView (s : State) (p : Nat) (moved : List (BitVec 32)) :
    (s.latchPose p moved).tickView = s.tickView := by
  unfold State.latchPose
  dsimp only
  split
  · rfl
  · split
    · next t w h1 => exact (congrArg (fun x => x.1.tickView) h1).symm.trans (s.tryPose_tickView ..)
    · next t h1 =>
      have ht : t.tickView = s.tickView := (congrArg (fun x => x.1.tickView) h1).symm.trans (s.tryPose_tickView ..)
      split
      · next u w h2 => exact ((congrArg (fun x => x.1.tickView) h2).symm.trans (t.tryPose_tickView ..)).trans ht
      · next u h2 =>
        have hu : u.tickView = t.tickView := (congrArg (fun x => x.1.tickView) h2).symm.trans (t.tryPose_tickView ..)
        exact (u.tickView_inc (by unfold Od.MR_POSE_STALE; omega)).trans (hu.trans ht)

@[simp] theorem State.readRow_tickView (s : State) (p y : Nat) : (s.readRow p y).1.tickView = s.tickView := by
  unfold State.readRow
  dsimp only
  split <;> simp

@[simp] theorem State.readRows_tickView (s : State) (p last : Nat) : (s.readRows p last).tickView = s.tickView :=
  State.foldl_tickView (fun t y => by simp) _ s

@[simp] theorem State.catchUp_tickView (s : State) (p : Nat) : (s.catchUp p).tickView = s.tickView := s.readRows_tickView _ _

@[simp] theorem State.wrBand_tickView (s : State) (p b : Nat) (rows : List (List Byte)) (fallback : Bool) :
    (s.wrBand p b rows fallback).tickView = s.tickView :=
  (State.foldl_tickView (fun t _ => t.wrPart_tickView _ _ _) _ _).trans (s.catchUp_tickView p)

@[simp] theorem State.fallbackSurface_tickView (s : State) (p : Nat) (m : MrLatch) :
    (s.fallbackSurface p m).1.tickView = s.tickView := by
  refine State.foldl_fst_tickView (fun x q => ?_) _ (s, [])
  exact x.1.rdThrough_tickView _ _ _

@[simp] theorem State.rdPose_tickView (s : State) (cl va : Nat) : (s.rdPose cl va).1.tickView = s.tickView :=
  s.rdThrough_tickView _ _ _

@[simp] theorem State.fallbackRows_tickView (s : State) (p b : Nat) (m : MrLatch) (moved : List (BitVec 32)) :
    (s.fallbackRows p b m moved).1.tickView = s.tickView := by
  unfold State.fallbackRows
  dsimp only
  rw [State.fallbackSurface_tickView]
  split <;> simp

@[simp] theorem State.fillBand_tickView (s : State) (p b : Nat) (m : Option MrLatch) (moved : List (BitVec 32)) :
    (s.fillBand p b m moved).tickView = s.tickView := by
  unfold State.fillBand
  dsimp only
  split
  · split <;> simp
  · rfl

@[simp] theorem State.lateBand_tickView (s : State) (p b : Nat) (moved : List (BitVec 32)) :
    (s.lateBand p b moved).tickView = s.tickView := by
  unfold State.lateBand
  dsimp only
  split
  · simp
  · have hlate : ∀ (t : State) (v : Nat), (t.set (Od.MR_LAST_LATE p) v).tickView = t.tickView :=
      fun t v => t.tickView_set v (by unfold Od.MR_LAST_LATE; omega)
    have hcount : ∀ (t : State) (c : Bool),
        (t.inc (if c then Od.MR_FALLBACKS p else Od.MR_BLANK_BANDS p)).tickView = t.tickView :=
      fun t c => t.tickView_inc (by unfold Od.MR_FALLBACKS Od.MR_BLANK_BANDS; split <;> omega)
    rw [State.when_tickView (fun t => t.atPoint_tickView _)]
    simp [hlate, hcount]

@[simp] theorem State.bandDue_tickView (s : State) (p : Nat) (moved : List (BitVec 32)) :
    (s.bandDue p moved).tickView = s.tickView := by
  unfold State.bandDue
  dsimp only
  split
  · split <;> simp
  · rfl

@[simp] theorem State.allDue_tickView (s : State) (p : Nat) : (s.allDue p).tickView = s.tickView :=
  State.foldl_tickView (fun t _ => t.bandDue_tickView p []) _ s

@[simp] theorem State.skipBands_tickView (s : State) (p : Nat) : (s.skipBands p).tickView = s.tickView := by
  unfold State.skipBands
  simp [State.foldl_tickView (fun t (_ : BandState) => t.missBand_tickView p)]

/-! ## The end of a scan -/

@[simp] theorem State.underrun_tickView (s : State) (p x y count : Nat) : (s.underrun p x y count).tickView = s.tickView := by
  have hpix : ∀ (t : State) (n : Nat), (t.incBy (Od.UNDERRUN_PIX p) n).tickView = t.tickView :=
    fun t n => t.tickView_incBy n (by unfold Od.UNDERRUN_PIX; omega)
  have hframes : ∀ t : State, (t.inc (Od.UNDERRUN_FRAMES p)).tickView = t.tickView :=
    fun t => t.tickView_inc (by unfold Od.UNDERRUN_FRAMES; omega)
  unfold State.underrun
  refine State.ite_tickView rfl (State.ite_tickView rfl ?_)
  extract_lets counted gathered cut sent
  have hgathered : gathered.tickView = s.tickView :=
    (State.gatherN_tickView ..).trans (State.ite_tickView rfl (hframes s))
  have hsent : sent.tickView = s.tickView := State.ite_tickView hgathered ((hpix cut _).trans hgathered)
  exact State.ite_tickView ((hpix _ _).trans hgathered) ((sent.skipBands_tickView p).trans hsent)

@[simp] theorem State.starveFrom_tickView (s : State) (p w n i : Nat) : (s.starveFrom p w n i).tickView = s.tickView := by
  induction n generalizing s i with
  | zero => rfl
  | succ n ih =>
    unfold State.starveFrom
    rw [ih]
    split <;> simp

@[simp] theorem State.starve_tickView (s : State) (p : Nat) : (s.starve p).tickView = s.tickView := by
  unfold State.starve
  dsimp only
  split <;> simp

@[simp] theorem State.fetchLayer_tickView (s : State) (c : LayerCfg) (need : Nat → Nat → Bool) :
    (s.fetchLayer c need).1.tickView = s.tickView := by
  refine State.foldl_fst_tickView (fun x q => ?_) _ (s, [], none)
  exact x.1.rdThrough_tickView _ _ _

@[simp] theorem State.noteFetchFault_tickView (s : State) (p : Nat) (l : Shown) (va : Nat) :
    (s.noteFetchFault p l va).tickView = s.tickView := by
  unfold State.noteFetchFault
  dsimp only
  split <;> simp

@[simp] theorem State.fetchLayers_tickView (s : State) (p : Nat) : (s.fetchLayers p).1.tickView = s.tickView := by
  refine State.foldl_fst_tickView (fun x l => ?_) _ (s, [])
  dsimp only
  split
  · rfl
  · split <;> simp

theorem State.byFifo_tickView {α : Type} (s : State) {f : State → State × α} (hf : ∀ t, (f t).1.tickView = t.tickView) :
    (s.byFifo f).1.tickView = s.tickView := hf { s with mem := { s.mem with refresh := .awake } }

@[simp] theorem State.noteScan_tickView (s : State) (p : Nat) (pixels : List Nat) : (s.noteScan p pixels).tickView = s.tickView := by
  unfold State.noteScan
  dsimp only
  split
  · exact State.when_tickView (fun t => t.tickView_inc (by unfold Od.OUTCHK_SKIPPED; omega))
  · split <;> simp

@[simp] theorem State.frameComplete_tickView (s : State) (p : Nat) : (s.frameComplete p).tickView = s.tickView := by
  unfold State.frameComplete
  dsimp only
  split
  · rfl
  · exact State.foldl_tickView (fun t b => t.releaseBuf_tickView b) _ _

/-- The end of a scan (R319, R322, R328). -/
@[simp] theorem State.scanEnd_tickView (s : State) (p : Nat) : (s.scanEnd p).tickView = s.tickView := by
  have hfetch : ∀ t : State, (t.byFifo (·.fetchLayers p)).1.tickView = t.tickView :=
    fun t => t.byFifo_tickView (fun u => u.fetchLayers_tickView p)
  unfold State.scanEnd
  refine State.ite_tickView rfl ?_
  rw [State.frameComplete_tickView, State.putPipe_tickView, State.noteScan_tickView,
    State.when_tickView (fun t => t.emit_tickView _)]
  refine (State.ite_tickView (State.spend_tickView _) rfl).trans ((hfetch _).trans ?_)
  simp

/-! ## The begin of a frame -/

@[simp] theorem State.holdEarly_tickView (s : State) (p : Nat) : (s.holdEarly p).tickView = s.tickView := by
  have hfetch : ∀ t : State, (t.byFifo (·.fetchLayers p)).1.tickView = t.tickView :=
    fun t => t.byFifo_tickView (fun u => u.fetchLayers_tickView p)
  unfold State.holdEarly
  dsimp only
  split
  · rfl
  · change State.tickView (ite _ _ _) = _
    split <;> simp [hfetch]

@[simp] theorem State.showLayer_tickView (s : State) (p l : Nat) (c : LayerCfg) : (s.showLayer p l c).tickView = s.tickView := by
  have h1 : ∀ (t : State) (v : Nat), (t.set (Od.L_STATE (layerNo p l)) v).tickView = t.tickView :=
    fun t v => t.tickView_set v (by unfold Od.L_STATE; omega)
  have h2 : ∀ (t : State) (v : Nat), (t.set (Od.L_VA (layerNo p l)) v).tickView = t.tickView :=
    fun t v => t.tickView_set v (by unfold Od.L_VA; omega)
  have h3 : ∀ (t : State) (v : Nat), (t.set (Od.L_RECT (layerNo p l)) v).tickView = t.tickView :=
    fun t v => t.tickView_set v (by unfold Od.L_RECT; omega)
  exact (h3 _ _).trans ((h2 _ _).trans (h1 _ _))

@[simp] theorem State.latchReady_tickView (s : State) (p f : Nat) (r : Ready) : (s.latchReady p f r).tickView = s.tickView := by
  unfold State.latchReady
  dsimp only
  split <;> simp

@[simp] theorem State.lateFor_tickView (s : State) (p l f : Nat) : (s.lateFor p l f).tickView = s.tickView := by
  unfold State.lateFor
  dsimp only
  split
  · rfl
  · exact State.tickView_inc _ (by unfold Od.LATE_COUNT; omega)

@[simp] theorem State.latchLayer_tickView (s : State) (p f l : Nat) : (s.latchLayer p f l).tickView = s.tickView := by
  unfold State.latchLayer
  dsimp only
  split
  · split <;> simp
  · split
    · rw [State.foldl_tickView (fun t (o : Ready) => t.endUnshown_tickView _)]
      simp
    · rfl

@[simp] theorem State.countShown_tickView (s : State) (p : Nat) : (s.countShown p).tickView = s.tickView := rfl

/-- The begin of a frame (R308, R321). -/
@[simp] theorem State.frameBegin_tickView (s : State) (p f : Nat) : (s.frameBegin p f).tickView = s.tickView := by
  unfold State.frameBegin
  dsimp only
  split
  · rw [State.when_tickView (fun t => t.holdEarly_tickView p)]
    simp
  · rw [State.when_tickView (fun t => t.holdEarly_tickView p), State.countShown_tickView,
      State.foldl_tickView (fun t l => t.latchLayer_tickView p f l)]
    simp

/-! ## The next frame of a pipe -/

theorem State.upsets_get (s : State) (l : List Upset) {k : Nat} (hk : k < 0x900000) : (s.upsets l).get k = s.get k :=
  (memClosed_get (C := fun _ => True) k (s.get k) (fun h => by have := h.ge; omega)).upsets l rfl

theorem memClosed_pipes {C : Nat → Prop} (x : Map Pipe) : MemClosed C (fun t => t.pipes = x) :=
  ⟨fun _ _ _ _ h => h, fun _ _ h => h, fun _ _ _ _ h => h, fun _ h => h⟩

theorem State.upsets_pipes (s : State) (l : List Upset) : (s.upsets l).pipes = s.pipes :=
  (memClosed_pipes (C := fun _ => True) s.pipes).upsets l rfl

/-- When the next frame begins depends on the pipe and on objects of the display engine alone. -/
theorem State.beginsFrame_congr {s t : State} {p at_ : Nat} (hp : p < 4) (hpipes : t.pipes = s.pipes)
    (hget : ∀ k < 0x900000, t.get k = s.get k) (h : s.beginsFrame p at_) : t.beginsFrame p at_ := by
  have hpipe : t.pipe p = s.pipe p := by unfold State.pipe; rw [hpipes]
  have hen : t.pipeOn p = s.pipeOn p := by
    unfold State.pipeOn State.on
    rw [hget _ (by unfold Od.PIPE_EN; omega)]
  have hns : t.frameNs p = s.frameNs p := by
    unfold State.frameNs State.hTotal State.vTotal State.vBlank
    rw [hget (Od.H_ACTIVE p) (by unfold Od.H_ACTIVE; omega), hget (Od.H_FP p) (by unfold Od.H_FP; omega),
      hget (Od.H_SYNC p) (by unfold Od.H_SYNC; omega), hget (Od.H_BP p) (by unfold Od.H_BP; omega),
      hget (Od.V_ACTIVE p) (by unfold Od.V_ACTIVE; omega), hget (Od.V_FP p) (by unfold Od.V_FP; omega),
      hget (Od.V_SYNC p) (by unfold Od.V_SYNC; omega), hget (Od.V_BP p) (by unfold Od.V_BP; omega),
      hget (Od.PCLK_KHZ p) (by unfold Od.PCLK_KHZ; omega)]
  unfold State.beginsFrame State.framing at *
  rwa [hpipe, hen, hns]

/-- A frame of pipe 0 begins: the scan of the one before ends, its t_F is an edge, and it is counted and latched. -/
theorem State.frameStart_zero {s : State} (h : s.beginsFrame 0 s.now) :
    ∃ f, s.frameStart 0 =
      (((s.scanEnd 0).sourceEdge 0 (s.scanEnd 0).now).set (Od.FRAME_COUNT 0) f).frameBegin 0 f := by
  obtain ⟨hframing, hstop, hdue⟩ := h
  refine ⟨min (2 ^ 48 - 1) (((s.scanEnd 0).sourceEdge 0 (s.scanEnd 0).now).get (Od.FRAME_COUNT 0) + 1), ?_⟩
  unfold State.frameStart
  simp only [hframing, hstop, Bool.not_true, Bool.false_or, decide_eq_true_eq, Nat.not_lt.mpr hdue, if_false,
    Bool.false_eq_true, BEq.rfl, if_true]

/-- What `FRAME_START` of pipe 0 does to the tick is what its edge does, and the edge finds the tick as it was. -/
theorem exec_frameStart_zero {s : State} {dt : Nat} (ups : List Upset) (h : s.beginsFrame 0 (s.now + dt)) :
    ∃ e t : State, e.tickView = (s.advance dt).tickView ∧ exec (.frameStart dt 0 ups) s = .next t ∧
      t.tickView = (e.sourceEdge 0 (s.now + dt)).tickView := by
  have hbegins : ((s.advance dt).upsets ups).beginsFrame 0 ((s.advance dt).upsets ups).now := by
    rw [State.now_of_tickView ((s.advance dt).upsets_tickView ups)]
    exact State.beginsFrame_congr (by decide) (State.upsets_pipes ..) (fun k hk => State.upsets_get _ _ hk) h
  have hview : (((s.advance dt).upsets ups).scanEnd 0).tickView = (s.advance dt).tickView :=
    (State.scanEnd_tickView ..).trans (State.upsets_tickView ..)
  obtain ⟨f, hstart⟩ := State.frameStart_zero hbegins
  refine ⟨_, _, hview, congrArg Host.Outcome.next hstart, ?_⟩
  rw [State.frameBegin_tickView, State.tickView_set _ f (by decide), State.now_of_tickView hview]
  rfl

/-! ## Edges that are no ticks -/

/-- An edge within 2.5 ms of the tick before is a runt (R17). -/
theorem State.sourceEdge_runt {s : State} {src at_ : Nat} (halive : s.alive = true) (hen : s.on Od.TICK_EN = true)
    (hsrc : s.tick.src = src) (hsince : s.tick.since ≠ 0) (hat : at_ < s.tB + s.get Od.TICK_TS + 2500000) :
    s.sourceEdge src at_ = s.inc Od.RUNT_COUNT := by
  unfold State.sourceEdge
  have hsource : ¬ (!s.alive || !s.on Od.TICK_EN || s.tick.src != src) = true := by
    rw [halive, hen, hsrc, bne_self_eq_false]
    decide
  rw [if_neg hsource, if_neg (mt beq_iff_eq.mp hsince), if_pos hat]

/-- An edge is ignored while ticks are disabled, and within 2.5 ms of their start (R14). -/
theorem State.sourceEdge_ignored {s : State} {at_ : Nat} (src : Nat)
    (h : s.on Od.TICK_EN = false ∨ (s.tick.since = 0 ∧ at_ < s.tick.enAt + 2500000)) : s.sourceEdge src at_ = s := by
  unfold State.sourceEdge
  split
  · rfl
  · next hsource =>
    rcases h with hen | ⟨hsince, hearly⟩
    · exact absurd (by rw [hen, Bool.not_false, Bool.or_true, Bool.true_or]) hsource
    · rw [if_pos (beq_iff_eq.mpr hsince), if_neg (Nat.not_le.mpr hearly)]

theorem State.get_inc_other (s : State) {k j : Nat} (h : j ≠ k) : (s.inc k).get j = s.get j := s.get_set_other _ h

/-- Settles O22: an edge of TICK_IN is judged at once; an edge of pipe 0 is judged inside the frame start, which otherwise
leaves the tick alone. -/
theorem runtsAreCounted : Obligations.RuntsAreCounted := by
  intro s dt high latency ups at_ runts
  refine ⟨?_, ?_, ?_, ?_⟩
  · intro hhigh halive hen hsrc hsince hat
    have hedge : (s.advance dt).sourceEdge 1 at_ = (s.advance dt).inc Od.RUNT_COUNT :=
      State.sourceEdge_runt halive hen hsrc hsince hat
    have hpulse : ¬ high < 40 := by omega
    exact congrArg Host.Outcome.next ((if_neg hpulse).trans hedge)
  · intro h
    by_cases hpulse : high < 40
    · exact congrArg Host.Outcome.next (if_pos hpulse)
    · have hno : s.on Od.TICK_EN = false ∨ (s.tick.since = 0 ∧ at_ < s.tick.enAt + 2500000) :=
        h.imp_right (fun h => h.resolve_right hpulse)
      have hedge : (s.advance dt).sourceEdge 1 at_ = s.advance dt := State.sourceEdge_ignored 1 hno
      exact congrArg Host.Outcome.next ((if_neg hpulse).trans hedge)
  · intro hbegins halive hen hsrc hsince hat
    obtain ⟨e, t, he, hexec, ht⟩ := exec_frameStart_zero ups hbegins
    have htick : e.tick = s.tick := (State.tick_of_tickView he).trans (s.advance_tick dt)
    have htB : e.tB = s.tB := (State.tB_of_tickView he).trans (s.advance_tB dt)
    have hget : ∀ k < 0x300000, e.get k = s.get k := fun k hk => (State.get_of_tickView he hk).trans (s.advance_get dt k)
    rw [State.sourceEdge_runt ((State.alive_of_tickView he).trans halive) ((State.on_of_tickView he (by decide)).trans hen)
      (by rw [htick, hsrc]) (by rwa [htick]) (by rwa [htB, hget _ (by decide)])] at ht
    refine ⟨t, hexec, ?_, ?_, (State.tick_of_tickView ht).trans htick⟩
    · rw [State.get_of_tickView ht (by decide), State.inc, State.get_incBy, hget _ (by decide)]
    · rw [State.get_of_tickView ht (by decide), State.get_inc_other _ (by decide), hget _ (by decide)]
  · intro hbegins h
    obtain ⟨e, t, he, hexec, ht⟩ := exec_frameStart_zero ups hbegins
    have htick : e.tick = s.tick := (State.tick_of_tickView he).trans (s.advance_tick dt)
    rw [State.sourceEdge_ignored 0 (by rwa [htick, State.on_of_tickView he (by decide), State.advance_on])] at ht
    have hget : ∀ k < 0x300000, t.get k = s.get k :=
      fun k hk => (State.get_of_tickView (ht.trans he) hk).trans (s.advance_get dt k)
    exact ⟨t, hexec, hget _ (by decide), hget _ (by decide), (State.tick_of_tickView ht).trans htick⟩

end Sys2Proof.Machine

/-! SUPPORT. A request of the field network that is accepted and answered with OK, said once: the frame's way to the request's
own operation, and from there to the response (R31, R34, R35, R37, R42). Then block transfers (R38, R39). -/

namespace Sys2Proof.Machine

/-! ## The response that stands in line -/

/-- Where nothing else is owed to a node, its one response leaves as soon as it is due. -/
theorem leaving_append_due {l : List Waiting} {w : Waiting} {now : Nat} (hfree : ∀ v ∈ l, v.node ≠ w.node)
    (hframe : w.frame.isSome = true) (hdue : w.due ≤ now) : leaving w.node now false (l ++ [w]) = ([w], l) := by
  induction l with
  | nil => simp [leaving, hframe, hdue]
  | cons v l ih =>
    obtain ⟨hv, hl⟩ := List.forall_mem_cons.mp hfree
    have hother : (v.node == w.node) = false := beq_false_of_ne hv
    simp [leaving, hother, ih hl]

theorem State.fillWaiting_append {s : State} {l : List Waiting} {w : Waiting} (hline : s.bap.waiting = l ++ [w])
    (hfree : ∀ v ∈ l, v.node ≠ w.node) (hopen : w.frame = none) (frame : List Byte) (after : Option (Nat × Nat)) :
    s.fillWaiting w.node frame after =
      { s with bap := { s.bap with waiting := l ++ [{ w with frame := some frame, after := after }] } } := by
  have hkeep : l.map (fun v => if v.node == w.node && v.frame.isNone then { v with frame := some frame, after := after } else v)
      = l :=
    (List.map_congr_left fun v hv => if_neg (by simp [hfree v hv])).trans (List.map_id' l)
  unfold State.fillWaiting
  rw [hline, List.map_append, hkeep]
  simp [hopen]

theorem State.flushNode_append {s : State} {l : List Waiting} {w : Waiting} {frame : List Byte}
    (hline : s.bap.waiting = l ++ [w]) (hfree : ∀ v ∈ l, v.node ≠ w.node) (hframe : w.frame = some frame) (hafter : w.after = none)
    (hdue : w.due ≤ s.now) :
    s.flushNode w.node = { s with bap := { s.bap with waiting := l }, out := Out.frame w.mac frame :: s.out } := by
  unfold State.flushNode
  rw [hline, leaving_append_due hfree (by rw [hframe]; rfl) hdue]
  simp [hframe, hafter, State.emit]

/-- The response owed to a node leaves, once it is there. -/
theorem State.answer_owed {s : State} {l : List Waiting} {w : Waiting} (hline : s.bap.waiting = l ++ [w])
    (hfree : ∀ v ∈ l, v.node ≠ w.node) (hopen : w.frame = none) (hdue : w.due ≤ s.now) (frame : List Byte) :
    (s.fillWaiting w.node frame none).flushNode w.node =
      { s with bap := { s.bap with waiting := l }, out := Out.frame w.mac frame :: s.out } := by
  rw [State.fillWaiting_append hline hfree hopen]
  exact State.flushNode_append (w := { w with frame := some frame, after := none }) rfl hfree rfl rfl hdue

/-! ## From the frame to the operation and back -/

/-- A response depends on the objects by the node's own number alone. -/
theorem State.response_congr {s t : State} (h : s.get Od.NODE_ID = t.get Od.NODE_ID) (r : BapReq) (x : Option Session)
    (p : List Byte) : s.response r x p = t.response r x p := by
  unfold State.response
  rw [h]

/-- A request that is no duplicate runs, under the session that accepts it (R37, R42). -/
theorem State.bapAccept_new {s : State} {r : BapReq} {x : Option Session}
    (hnew : ∀ k, mget s.bap.kept r.src = some k → sameRequest k r = false)
    (hauth : if r.auth then x.isSome = true ∧ s.sessionFor r = x else x = none) : s.bapAccept r = s.bapRun r x := by
  unfold State.bapAccept
  dsimp only
  split
  · next k hdup =>
    split at hdup
    · next k' hk => simp [hnew k' hk] at hdup
    · cases hdup
  · split at hauth
    · next hr =>
      obtain ⟨hsome, hsession⟩ := hauth
      obtain ⟨y, rfl⟩ := Option.isSome_iff_exists.mp hsome
      rw [hr, hsession]
      rfl
    · next hr =>
      subst hauth
      simp [hr]

/-- An accepted frame's request runs, under the session that accepted it. -/
theorem State.bapRx_accepted {s : State} {f : BapFrame} {r : BapReq} {x : Option Session} (h : s.accepts f r x) :
    ∃ b : BapSt, b.xfers = s.bap.xfers ∧ b.waiting = s.bap.waiting ∧ s.bapRx f = ({ s with bap := b } : State).bapRun r x := by
  obtain ⟨hnet, hlen, haddr, hkeep, rfl, hnew, -, hauth⟩ := h
  unfold State.bapRx
  simp only [hnet, haddr, hkeep, Nat.not_lt.mpr hlen, Bool.not_true, Bool.false_or, decide_false, Bool.false_eq_true, if_false]
  cases (requestOf f).src == 0xFF with
  | true => exact ⟨s.bap, rfl, rfl, State.bapAccept_new hnew hauth⟩
  | false =>
    exact ⟨{ s.bap with macs := mset s.bap.macs (requestOf f).src f.srcMac }, rfl, rfl,
      State.bapAccept_new (s := { s with bap := { s.bap with macs := _ } }) hnew hauth⟩

/-- The response owed to a request while it runs, without its frame (R31). -/
def BapReq.owed (r : BapReq) (due : Nat) : Waiting := { node := r.src, mac := r.mac, due := due, frame := none, after := none }

/-- The execution of a request, ended in `u` from `s`, left alone what its response is made from and the frames that wait. -/
structure State.AnsweredFrom (u s : State) : Prop where
  waiting : u.bap.waiting = s.bap.waiting
  now : u.now = s.now
  od : u.od = s.od

/-- The end of a request answered with OK: it is counted and kept, and its response leaves. -/
theorem State.answer_counted {s u : State} {r : BapReq} {l : List Waiting} (h : u.AnsweredFrom s)
    (hline : s.bap.waiting = l ++ [r.owed s.now]) (hfree : ∀ w ∈ l, w.node ≠ r.src) (kept : Map Kept) (x : Option Session)
    (p : List Byte) :
    (({ u.inc Od.BAP_RX_OK with bap := { u.bap with kept := kept } } : State).fillWaiting r.src
        ((u.inc Od.BAP_RX_OK).response r x p) none).flushNode r.src =
      { u.inc Od.BAP_RX_OK with
        bap := { u.bap with kept := kept, waiting := l }, out := Out.frame r.mac (s.response r x p) :: u.out } := by
  have hnode : (u.inc Od.BAP_RX_OK).get Od.NODE_ID = s.get Od.NODE_ID :=
    (u.get_inc_other (by decide)).trans (State.get_congr h.od _)
  rw [State.response_congr hnode]
  exact State.answer_owed (s := { u.inc Od.BAP_RX_OK with bap := { u.bap with kept := kept } }) (w := r.owed s.now)
    (h.waiting.trans hline) hfree rfl (Nat.le_of_eq h.now.symm) _

theorem State.discoverDelay_other (s : State) {r : BapReq} (h : r.opcode ≠ 0x30) : s.discoverDelay r = 0 := by
  unfold State.discoverDelay
  simp [h]

/-- The session that accepted a request has moved on. -/
def State.underSession (s : State) : Option Session → State
  | some x => s.putSession x
  | none => s

/-- The state in which a request runs: under its session, with its response owed. -/
def State.receiving (s : State) (r : BapReq) (x : Option Session) : State :=
  { s.underSession x with
    bap := { (s.underSession x).bap with waiting := (s.underSession x).bap.waiting ++ [r.owed (s.underSession x).now] } }

/-- What a request meets differs from the state before it in the field network's own part alone. -/
theorem State.receiving_eq (s : State) (r : BapReq) (x : Option Session) :
    ∃ b : BapSt, s.receiving r x = { s with bap := b } ∧ b.xfers = s.bap.xfers ∧
      b.waiting = s.bap.waiting ++ [r.owed s.now] := by
  cases x with
  | none => exact ⟨(s.receiving r none).bap, rfl, rfl, rfl⟩
  | some x => exact ⟨(s.receiving r (some x)).bap, rfl, rfl, rfl⟩

/-- A request answered with OK, but SESSION_OPEN and DISCOVER, is counted, kept with its response, and answered (R31, R37). -/
theorem State.bapRun_ok {s u : State} {r : BapReq} {x : Option Session} {d : List Byte} (hopen : r.opcode ≠ 0x20)
    (hdiscover : r.opcode ≠ 0x30) (hexec : (s.receiving r x).bapExec r = ⟨u, Ab.OK, d, none⟩) :
    let frame := (u.inc Od.BAP_RX_OK).response r x ([0, 0] ++ d)
    s.bapRun r x =
      (({ u.inc Od.BAP_RX_OK with
        bap := { u.bap with kept := mset u.bap.kept r.src ⟨r.body ++ r.trailer, frame⟩ } } : State).fillWaiting r.src frame
          none).flushNode r.src := by
  have hnotOpen : (r.opcode == 0x20) = false := beq_false_of_ne hopen
  unfold State.receiving State.underSession BapReq.owed at hexec
  unfold State.bapRun
  cases x <;> simp only [State.discoverDelay_other _ hdiscover, Nat.add_zero, hexec, hnotOpen] <;> rfl

/-- A request whose execution is answered with OK is counted and answered. -/
theorem State.bapRun_answers {s : State} {r : BapReq} (x : Option Session) (hopen : r.opcode ≠ 0x20) (hdiscover : r.opcode ≠ 0x30)
    (hfree : ∀ w ∈ s.bap.waiting, w.node ≠ r.src) :
    ∃ b : BapSt, b.xfers = s.bap.xfers ∧ ∀ (u : State) (d : List Byte),
      ({ s with bap := b } : State).bapExec r = ⟨u, Ab.OK, d, none⟩ → u.AnsweredFrom { s with bap := b } →
      ∃ b' : BapSt, b'.xfers = u.bap.xfers ∧ s.bapRun r x =
        { u.inc Od.BAP_RX_OK with bap := b', out := Out.frame r.mac (s.response r x ([0, 0] ++ d)) :: u.out } := by
  obtain ⟨b, hrecv, hxfers, hline⟩ := s.receiving_eq r x
  refine ⟨b, hxfers, fun u d hexec hans => ?_⟩
  rw [State.bapRun_ok hopen hdiscover (hrecv ▸ hexec), State.answer_counted hans hline hfree]
  refine ⟨_, ?_, rfl⟩
  rfl

/-- An accepted request that is answered with OK: the state it runs in differs from the one before the frame in the field
network's own part alone. -/
theorem State.bapRx_answers {s : State} {f : BapFrame} {r : BapReq} {x : Option Session} (h : s.accepts f r x)
    (hopen : r.opcode ≠ 0x20) (hdiscover : r.opcode ≠ 0x30) :
    ∃ b : BapSt, b.xfers = s.bap.xfers ∧ ∀ (u : State) (d : List Byte),
      ({ s with bap := b } : State).bapExec r = ⟨u, Ab.OK, d, none⟩ → u.AnsweredFrom { s with bap := b } →
      ∃ b' : BapSt, b'.xfers = u.bap.xfers ∧ s.bapRx f =
        { u.inc Od.BAP_RX_OK with bap := b', out := Out.frame r.mac (s.response r x ([0, 0] ++ d)) :: u.out } := by
  obtain ⟨b, hxfers, hline, hrx⟩ := State.bapRx_accepted h
  obtain ⟨-, -, -, -, -, -, hfree, -⟩ := h
  obtain ⟨c, hc, hrun⟩ := State.bapRun_answers (s := { s with bap := b }) x hopen hdiscover (fun w hw => hfree w (hline ▸ hw))
  refine ⟨c, hc.trans hxfers, fun u d hexec hans => ?_⟩
  rw [hrx]
  exact hrun u d hexec hans

/-! ## Block transfers -/

/-- The state after a segment that a transfer takes: `all` has arrived of `total` bytes. -/
def State.putSegment (s : State) (via : Path) (r : Row) (k total : Nat) (all : List Byte) : State :=
  if all.length = total then ((s.dropBlock k).setDom k all).markWritten r k
  else { s with bap := { s.bap with xfers := mset s.bap.xfers k { owner := via, total := total, data := all, last := s.now } } }

theorem State.markWritten_eq (s : State) (r : Row) (k : Nat) : ∃ w, s.markWritten r k = { s with written := w } := by
  unfold State.markWritten
  split
  · exact ⟨_, rfl⟩
  · exact ⟨s.written, rfl⟩

theorem State.getDom_setDom_self (s : State) (k : Nat) (v : List Byte) : (s.setDom k v).getDom k = v := mgetD_mput_self ..

/-- The last segment gives the object its content and ends the transfer. -/
theorem State.putSegment_last (s : State) (via : Path) (r : Row) (k : Nat) (all : List Byte) :
    ∃ w, s.putSegment via r k all.length all = { (s.dropBlock k).setDom k all with written := w } := by
  unfold State.putSegment
  rw [if_pos rfl]
  exact State.markWritten_eq ..

theorem State.putSegment_answeredFrom (s : State) (via : Path) (r : Row) (k total : Nat) (all : List Byte) :
    (s.putSegment via r k total all).AnsweredFrom s := by
  by_cases htotal : all.length = total
  · subst htotal
    obtain ⟨w, h⟩ := s.putSegment_last via r k all
    rw [h]
    exact ⟨rfl, rfl, rfl⟩
  · unfold State.putSegment
    rw [if_neg htotal]
    exact ⟨rfl, rfl, rfl⟩

/-- What a taken segment leaves of the object and of the transfer (R38). -/
theorem State.putSegment_content (s : State) (via : Path) (r : Row) (k total : Nat) (all : List Byte) :
    if all.length = total
    then (s.putSegment via r k total all).getDom k = all ∧ mget (s.putSegment via r k total all).bap.xfers k = none
    else (s.putSegment via r k total all).dom = s.dom ∧ mget (s.putSegment via r k total all).bap.xfers k =
      some { owner := via, total := total, data := all, last := s.now } := by
  split
  · next htotal =>
    subst htotal
    obtain ⟨w, h⟩ := s.putSegment_last via r k all
    rw [h]
    exact ⟨State.getDom_setDom_self .., mget_mdel_self ..⟩
  · next htotal =>
    unfold State.putSegment
    rw [if_neg htotal]
    exact ⟨rfl, mget_mset_self ..⟩

/-- All content has arrived, and the object is not locked (R38, R58). -/
theorem State.takeDom_unlocked {s : State} {r : Row} {k : Nat} (via : Path) (data : List Byte) (hlock : s.locked r k = false)
    (himage : k ≠ Od.FW_IMAGE) :
    s.takeDom via r k data = ⟨((s.dropBlock k).setDom k data).markWritten r k, Ab.OK, data.length⟩ := by
  unfold State.takeDom
  simp [hlock, himage]

/-- `head` is what a segment at `off` goes on from: nothing, or what the transfer holds. -/
def State.goesOnFrom (s : State) (k off total : Nat) (head : List Byte) : Prop :=
  (off = 0 ∧ head = []) ∨
    (0 < off ∧ head.length = off ∧ ∃ y, mget s.bap.xfers k = some y ∧ y.data = head ∧ y.total = total)

theorem State.goesOnFrom_length {s : State} {k off total : Nat} {head : List Byte} (h : s.goesOnFrom k off total head) :
    head.length = off := by
  rcases h with ⟨rfl, rfl⟩ | ⟨-, h, -⟩
  · rfl
  · exact h

/-- The size of a transfer and of its segment fit the object (R38). -/
def segmentFits (k off total n : Nat) : Prop :=
  0 < n ∧ n ≤ 1024 ∧ off + n ≤ total ∧ total ≤ (domSize k).1 ∧ ((domSize k).2 = false → total = (domSize k).1)

/-- A segment that fits and goes on from the transfer is taken. -/
theorem State.segment_taken {s : State} {via : Path} {r : Row} {k off total : Nat} {data head : List Byte}
    (hfits : segmentFits k off total data.length) (himage : k ≠ Od.FW_IMAGE) (hlock : s.locked r k = false)
    (hown : ∀ y, mget s.bap.xfers k = some y → samePath y.owner via = true) (hhead : s.goesOnFrom k off total head) :
    s.segment via r k off total data 1024 = ⟨s.putSegment via r k total (head ++ data), Ab.OK, off + data.length⟩ := by
  obtain ⟨hpos, hmax, hend, hsize, hexact⟩ := hfits
  have hall : (head ++ data).length = off + data.length := by rw [List.length_append, State.goesOnFrom_length hhead]
  have hkeep : (if (head ++ data).length == total then s.takeDom via r k (head ++ data)
      else ⟨{ s with bap := { s.bap with xfers := mset s.bap.xfers k ⟨via, total, head ++ data, s.now⟩ } }, Ab.OK,
        (head ++ data).length⟩ : BRes) = ⟨s.putSegment via r k total (head ++ data), Ab.OK, off + data.length⟩ := by
    unfold State.putSegment
    rw [State.takeDom_unlocked via _ hlock himage, hall]
    by_cases htotal : off + data.length = total <;> simp [htotal]
  unfold State.segment
  dsimp only
  rw [if_neg, if_neg, if_neg]
  · rcases hhead with ⟨rfl, rfl⟩ | ⟨hoff, rfl, y, hy, rfl, rfl⟩
    · exact hkeep
    · have hnotFirst : (y.data.length == 0) = false := beq_false_of_ne (by omega)
      simp only [hy, hnotFirst, Bool.false_eq_true, if_false, BEq.rfl, Bool.and_self, if_true]
      exact hkeep
  · simp [himage]
  · split
    · next y hy => simp [hown y hy]
    · simp
  · have hdata : data ≠ [] := List.ne_nil_of_length_pos hpos
    have hwhole : (!(domSize k).2 && total != (domSize k).1) = false := by
      cases hvar : (domSize k).2 with
      | false => simp [hexact hvar]
      | true => rfl
    rw [hwhole]
    simp [hdata]
    omega

/-- A BLOCK_WRITE whose segment is taken is answered with NEXT (R35). -/
theorem State.bapExec_blockWrite {s u : State} {r : BapReq} {row : Row} {next : Nat} (hop : r.opcode = 0x03)
    (hlen : 13 ≤ r.payload.length ∧ r.payload.length ≤ 1036) (hty : fldBe r.payload 3 1 = 9)
    (hrow : s.locate r.path (fldBe r.payload 0 2) (fldBe r.payload 2 1) true true = .ok row) (hdom : row.ty = .dom)
    (hro : row.acc ≠ .ro) (hrc : row.acc ≠ .rc)
    (hseg : s.segment r.path row (fldBe r.payload 0 2 * 256 + fldBe r.payload 2 1) (fldBe r.payload 4 4) (fldBe r.payload 8 4)
      (r.payload.drop 12) 1024 = ⟨u, Ab.OK, next⟩) :
    s.bapExec r = ⟨u, Ab.OK, [0, 0] ++ toBe 4 next, none⟩ := by
  have hblock : s.blockWrite r.path (fldBe r.payload 0 2) (fldBe r.payload 2 1) (fldBe r.payload 3 1) (fldBe r.payload 4 4)
      (fldBe r.payload 8 4) (r.payload.drop 12) 1024 = ⟨u, Ab.OK, next⟩ := by
    unfold State.blockWrite
    simp [hrow, hro, hrc, hdom, hty, hseg]
  have hsize : ¬ (r.payload.length < 13 || r.payload.length > 1036) = true := by simp; omega
  unfold State.bapExec State.bapBlockWrite
  simp only [hop, Nat.reduceBEq, Bool.false_eq_true, if_false, if_true, if_neg hsize, hblock]

/-- A BLOCK_READ of a readable DOM object is answered with the content's length and its bytes (R35, R39). -/
theorem State.bapExec_blockRead {s : State} {r : BapReq} {row : Row} (hop : r.opcode = 0x04) (hlen : r.payload.length = 10)
    (hcount : fldBe r.payload 8 2 ≤ 1024)
    (hrow : s.locate r.path (fldBe r.payload 0 2) (fldBe r.payload 2 1) false true = .ok row) (hdom : row.ty = .dom)
    (hread : row.writeOnly = false) :
    let content := s.domContent (fldBe r.payload 0 2 * 256 + fldBe r.payload 2 1)
    s.bapExec r =
      ⟨s, Ab.OK, toBe 4 content.length ++ slice content (fldBe r.payload 4 4) (fldBe r.payload 8 2), none⟩ := by
  intro content
  have hblock : s.blockRead r.path (fldBe r.payload 0 2) (fldBe r.payload 2 1) (fldBe r.payload 4 4) (fldBe r.payload 8 2) =
      (Ab.OK, content.length, slice content (fldBe r.payload 4 4) (fldBe r.payload 8 2)) := by
    unfold State.blockRead
    simp [hrow, hread, hdom, content]
  unfold State.bapExec State.bapBlockRead
  simp [hop, hlen, hblock, Nat.not_lt.mpr hcount]

/-! ## What the field network's own part does not decide -/

theorem State.locate_bap (s : State) (b : BapSt) (via : Path) (i j : Nat) (write block : Bool) :
    ({ s with bap := b } : State).locate via i j write block = s.locate via i j write block := by
  unfold State.locate
  cases lookup i j with
  | error c => rfl
  | ok r => rfl

theorem State.goesOnFrom_congr {s t : State} (h : t.bap.xfers = s.bap.xfers) (k off total : Nat) (head : List Byte) :
    t.goesOnFrom k off total head ↔ s.goesOnFrom k off total head := by
  unfold State.goesOnFrom
  rw [h]

/-! ## The obligation -/

/-- Settles O24: each request runs in the state before its frame but for the field network's own part, where the segment is
taken, or the content read, and the response leaves with what the operation answered. -/
theorem blockTransfersMoveContent : Obligations.BlockTransfersMoveContent := by
  constructor
  · intro s dt idx sub off total f r x row head hacc hop hmin hmax hidx hsub hty hoff htotal himage hrow hdom hro hrc hlock hsize
      hexact hend hown hhead
    subst hidx hsub hoff htotal
    obtain ⟨b, hxfers, hans⟩ := State.bapRx_answers hacc (by rw [hop]; decide) (by rw [hop]; decide)
    have hfits : segmentFits (fldBe r.payload 0 2 * 256 + fldBe r.payload 2 1) (fldBe r.payload 4 4) (fldBe r.payload 8 4)
        (r.payload.drop 12).length := ⟨by rw [List.length_drop]; omega, by rw [List.length_drop]; omega, hend, hsize, hexact⟩
    have hgoes : s.goesOnFrom _ _ _ head := hhead
    have hlen : (head ++ r.payload.drop 12).length = fldBe r.payload 4 4 + (r.payload.drop 12).length := by
      rw [List.length_append, State.goesOnFrom_length hgoes]
    have hseg := State.segment_taken (s := { s.advance dt with bap := b }) (via := r.path) (r := row) hfits himage hlock
      (by rwa [hxfers]) ((State.goesOnFrom_congr hxfers ..).mpr hgoes)
    have hexec := State.bapExec_blockWrite hop ⟨hmin, hmax⟩ hty ((State.locate_bap ..).trans hrow) hdom hro hrc hseg
    obtain ⟨b', hxfers', hrx⟩ := hans _ _ hexec (State.putSegment_answeredFrom ..)
    refine ⟨_, congrArg Host.Outcome.next hrx, List.mem_cons_self, ?_⟩
    have hcontent := State.putSegment_content { s.advance dt with bap := b } r.path row
      (fldBe r.payload 0 2 * 256 + fldBe r.payload 2 1) (fldBe r.payload 8 4) (head ++ r.payload.drop 12)
    rw [hlen, ← hxfers'] at hcontent
    exact hcontent
  · intro s dt idx sub f r x row hacc hop hlen hidx hsub hcount hrow hdom hwo hwo1
    subst hidx hsub
    obtain ⟨b, -, hans⟩ := State.bapRx_answers hacc (by rw [hop]; decide) (by rw [hop]; decide)
    have hread : row.writeOnly = false := by
      unfold Row.writeOnly
      simp [hwo, hwo1]
    have hexec := State.bapExec_blockRead (s := { s.advance dt with bap := b }) hop hlen hcount ((State.locate_bap ..).trans hrow)
      hdom hread
    obtain ⟨b', -, hrx⟩ := hans _ _ hexec ⟨rfl, rfl, rfl⟩
    refine ⟨_, congrArg Host.Outcome.next hrx, ?_, ?_, rfl, rfl⟩
    · rw [List.append_assoc]
      exact List.mem_cons_self
    · exact fun j hj => State.get_inc_other _ hj

end Sys2Proof.Machine

/-! SUPPORT. What a reset leaves in the objects it returns to their defaults and in the power domains, and an object write that
is refused or accepted, from the checks of R23 to its answer. Then how reset requests interact (R72, R105 to R108, R233, R363). -/

namespace Sys2Proof.Machine

/-! ## Objects after a reset -/

/-- A key whose entries a filter drops is not in the map. -/
theorem mget_filter_dropped {α : Type} (m : Map α) {p : Nat × α → Bool} {k : Nat} (h : ∀ v, p (k, v) = false) :
    mget (m.filter p) k = none := by
  induction m with
  | nil => rfl
  | cons e m ih =>
    obtain ⟨a, v⟩ := e
    by_cases ha : a = k
    · subst ha
      simpa [h] using ih
    · cases hkeep : p (a, v) <;> simp [hkeep, mget, ha, ih]

/-- An object that a reset selects reads its constant default. -/
theorem State.get_clearObjects (s : State) {p : Nat → Row → Bool} {k : Nat} {r : Row} (hr : rowOfKey k = some r)
    (hp : p k r = true) : (s.clearObjects p).get k = constDefault k := by
  have hgone : mget (s.clearObjects p).od k = none := mget_filter_dropped s.od fun _ => by simp [hr, hp]
  unfold State.get mgetD
  rw [hgone]
  rfl

/-- An object that a list sets to one value alone reads that value. -/
theorem State.get_sets_mem (s : State) {l : List (Nat × Nat)} {j v : Nat} (hmem : (j, v) ∈ l)
    (hone : ∀ e ∈ l, e.1 = j → e.2 = v) : (s.sets l).get j = v % 2 ^ widthOf j := by
  induction l generalizing s with
  | nil => cases hmem
  | cons e l ih =>
    by_cases hrest : (j, v) ∈ l
    · exact ih (s.set e.1 e.2) hrest fun x hx => hone x (List.mem_cons_of_mem _ hx)
    · have he : (j, v) = e := (List.mem_cons.mp hmem).resolve_right hrest
      subst he
      have hother : ∀ x ∈ l, j ≠ x.1 := fun x hx hj =>
        hrest (by rwa [hj, ← hone x (List.mem_cons_of_mem _ hx) hj.symm])
      exact ((s.set j v).get_sets_other l j hother).trans (s.get_set_self j v)

theorem State.applyStore_pwr (s : State) (p : Nat → Row → Bool) : (s.applyStore p).pwr = s.pwr := by
  unfold State.applyStore
  split
  · rfl
  · dsimp only
    refine foldl_ind (fun t : State => t.pwr = s.pwr) (fun t (e : Nat × List Byte) => t.setDom e.1 e.2) (fun _ _ h => h) _ _ ?_
    exact State.sets_ind (fun t => t.pwr = s.pwr) _ rfl fun _ _ _ h => h

theorem State.strapDefaults_pwr (s : State) (p : Nat → Row → Bool) : (s.strapDefaults p).pwr = s.pwr :=
  State.sets_ind (fun t => t.pwr = s.pwr) _ rfl fun _ _ _ h => h

theorem State.defaults_pwr (s : State) (p : Nat → Row → Bool) : (s.defaults p).pwr = s.pwr :=
  (State.applyStore_pwr ..).trans (State.strapDefaults_pwr ..)

/-! ## Power domains and TICK_OUT after a reset -/

theorem State.driveTickOut_eq (s : State) (l : PinLevel) :
    ∃ tick out, s.driveTickOut l = { s with tick := tick, out := out } := by
  unfold State.driveTickOut
  split
  · exact ⟨s.tick, s.out, rfl⟩
  · exact ⟨_, _, rfl⟩

@[simp] theorem State.driveTickOut_get (s : State) (l : PinLevel) (k : Nat) : (s.driveTickOut l).get k = s.get k := by
  obtain ⟨tick, out, h⟩ := s.driveTickOut_eq l
  rw [h]
  rfl

@[simp] theorem State.driveTickOut_boot (s : State) (l : PinLevel) : (s.driveTickOut l).boot = s.boot := by
  obtain ⟨tick, out, h⟩ := s.driveTickOut_eq l
  rw [h]

@[simp] theorem State.driveTickOut_pwr (s : State) (l : PinLevel) : (s.driveTickOut l).pwr = s.pwr := by
  obtain ⟨tick, out, h⟩ := s.driveTickOut_eq l
  rw [h]

theorem State.resetDomains_pwr (s : State) : s.resetDomains.pwr = s.pwr :=
  State.sets_ind (fun t => t.pwr = s.pwr) _ rfl fun _ _ _ h => h

theorem State.resetDomains_boot (s : State) : s.resetDomains.boot = s.boot :=
  State.sets_ind (fun t => t.boot = s.boot) _ rfl fun _ _ _ h => h

/-- A device reset leaves the gated domains OFF (R93). -/
theorem State.resetDomains_pd_gated (s : State) {d : Nat} (hlo : 3 ≤ d) (hhi : d < 11) : s.resetDomains.pd d = 0 := by
  obtain ⟨i, rfl⟩ := Nat.exists_eq_add_of_le hlo
  refine (s.get_sets_mem (v := 0) ?_ ?_).trans (Nat.zero_mod _)
  · exact List.mem_append_right _ (List.mem_map.mpr ⟨i, List.mem_range.mpr (by omega), rfl⟩)
  · intro e he hkey
    rcases List.mem_append.mp he with hfixed | hgated
    · simp only [List.mem_cons, List.not_mem_nil, or_false] at hfixed
      rcases hfixed with rfl | rfl | rfl <;> (unfold Od.PD_STATE at hkey; omega)
    · obtain ⟨_, -, rfl⟩ := List.mem_map.mp hgated
      rfl

theorem State.powerOnReset_phase (s : State) : s.powerOnReset.boot.phase = .held := by
  unfold State.powerOnReset
  simp [State.resetDomains_boot, State.clearObjects]

theorem State.powerOnReset_resetCause (s : State) : s.powerOnReset.get Od.RESET_CAUSE = 0 := by
  unfold State.powerOnReset
  simp [State.get_set_self]

@[simp] theorem State.tickDefaults_get (s : State) (k : Nat) : s.tickDefaults.get k = s.get k := rfl
@[simp] theorem State.tickDefaults_pwr (s : State) : s.tickDefaults.pwr = s.pwr := rfl

/-- A warm reset discards what the power domains and PLLs had under way, and ends with the domains as after every reset (R107). -/
theorem State.warmReset_ends (s : State) (cause : Nat) (ph : Phase) : ∃ u : State, u.pwr = Reset.pwr ∧
    s.warmReset cause ph = (u.resetDomains.set Od.RESET_CAUSE cause).tickDefaults.driveTickOut .low :=
  ⟨_, State.defaults_pwr .., rfl⟩

theorem State.warmReset_pwr (s : State) (cause : Nat) (ph : Phase) : (s.warmReset cause ph).pwr = Reset.pwr := by
  obtain ⟨u, hpwr, h⟩ := s.warmReset_ends cause ph
  simp [h, State.resetDomains_pwr, hpwr]

theorem State.warmReset_pd_gated (s : State) (cause : Nat) (ph : Phase) {d : Nat} (hlo : 3 ≤ d) (hhi : d < 11) :
    (s.warmReset cause ph).pd d = 0 := by
  have hkey : Od.PD_STATE d ≠ Od.RESET_CAUSE := by
    unfold Od.PD_STATE Od.RESET_CAUSE
    omega
  obtain ⟨u, -, h⟩ := s.warmReset_ends cause ph
  calc (s.warmReset cause ph).pd d
    _ = (u.resetDomains.set Od.RESET_CAUSE cause).get (Od.PD_STATE d) := by simp [State.pd, h]
    _ = u.resetDomains.pd d := State.get_set_other _ _ hkey
    _ = 0 := u.resetDomains_pd_gated hlo hhi

/-! ## PORST_N and WRST_N -/

theorem exec_wrstNFall_resting {s : State} (dt : Nat) (h : s.boot.phase.resting = true) :
    exec (.wrstNFall dt) s = .next { s.advance dt with boot := { s.boot with wrst := false } } := by
  change execWrstNFall dt s = _
  unfold execWrstNFall
  cases hphase : s.boot.phase with
  | unpowered | held | clockFail => simp [hphase]
  | starting | warmHeld | rom | running => simp [hphase, Phase.resting] at h

theorem exec_wrstNFall_up {s : State} (dt : Nat) (h : s.boot.phase.resting = false) :
    exec (.wrstNFall dt) s =
      .next (({ s.advance dt with boot := { s.boot with wrst := false } } : State).warmReset 1 .warmHeld) := by
  change execWrstNFall dt s = _
  unfold execWrstNFall
  cases hphase : s.boot.phase with
  | starting | warmHeld | rom | running => simp [hphase]
  | unpowered | held | clockFail => simp [hphase, Phase.resting] at h

theorem exec_porstNFall_powered {s : State} (dt : Nat) (h : s.boot.phase ≠ .unpowered) :
    exec (.porstNFall dt) s =
      .next { (s.advance dt).powerOnReset with boot := { (s.advance dt).powerOnReset.boot with porst := false } } := by
  change execPorstNFall dt s = _
  unfold execPorstNFall
  simp [h]

/-! ## A write that is refused, and one that is accepted -/

theorem State.countBap_refused (s : State) (via : Path) {c : Nat} (hok : c ≠ Ab.OK) (hauth : c ≠ Ab.AUTH) :
    s.countBap via c = s := by
  cases via
  case bap => simp [State.countBap, beq_false_of_ne hok, beq_false_of_ne hauth]
  all_goals rfl

theorem State.afterWrite_refused (s : State) (k v : Nat) {c : Nat} (hok : c ≠ Ab.OK) : s.afterWrite k v c = s := by
  unfold State.afterWrite
  simp [hok]

/-- A write whose value fails the checks 4 to 6 of R23 changes nothing, and is answered. -/
theorem State.objWrite_valueCode {s : State} {w : WReq} {k c : Nat} {r : Row} (hpath : s.pathUp w.via = true)
    (hrow : s.locate w.via (k / 256) (k % 256) true false = .ok r) (hc : s.valueCode r k w.ty w.size w.val = c)
    (hok : c ≠ Ab.OK) (hauth : c ≠ Ab.AUTH) : s.objWrite k w = s.emit (.answer w.via k c 0) := by
  have hkey : k / 256 * 256 + k % 256 = k := by omega
  have hvalue : ({ s with out := [] } : State).valueCode r k w.ty w.size w.val = c := hc
  have hdict : ({ s with out := [] } : State).dictWrite w.via (k / 256) (k % 256) w.ty w.size w.val =
      .no { s with out := [] } c := by
    unfold State.dictWrite
    rw [State.locate_out, hrow]
    simp [hkey, hvalue, hok]
  unfold State.objWrite
  rw [hdict]
  simp only [hpath, WRes.no, State.countBap_refused _ _ hok hauth, State.afterWrite_refused _ _ _ hok]
  rfl

/-- An admitted write that its object's own rule refuses changes nothing, and is answered (R25). -/
theorem State.objWrite_no {s : State} {w : WReq} {k c : Nat} {r : Row} (h : s.admits w k)
    (hr : lookup (k / 256) (k % 256) = .ok r)
    (he : ({ s with out := [] } : State).writeEffect w.via k (r.rng.filter w.val) = .no { s with out := [] } c)
    (hok : c ≠ Ab.OK) (hauth : c ≠ Ab.AUTH) : s.objWrite k w = s.emit (.answer w.via k c 0) := by
  rw [State.objWrite_admitted h hr, he]
  simp only [WRes.no, beq_iff_eq, hok, if_false, State.countBap_refused _ _ hok hauth, State.afterWrite_refused _ _ _ hok]
  rfl

/-- An admitted write that its object's own rule accepts has the rule's effect, is counted, and is answered with OK. NODE_ID,
WARM_RESET and the objects written once do more. -/
theorem State.objWrite_ok {s u : State} {w : WReq} {k : Nat} {r : Row} (h : s.admits w k)
    (hr : lookup (k / 256) (k % 256) = .ok r) (hacc : r.acc ≠ .wo1) (hnode : k ≠ Od.NODE_ID) (hwarm : k ≠ Od.WARM_RESET)
    (he : ({ s with out := [] } : State).writeEffect w.via k (r.rng.filter w.val) = .ok u) :
    s.objWrite k w = { u.countBap w.via Ab.OK with
      out := (u.countBap w.via Ab.OK).out ++ (Out.answer w.via k Ab.OK 0 :: s.out) } := by
  have hmark : u.markWritten r k = u := by
    unfold State.markWritten
    simp [hacc]
  rw [State.objWrite_admitted h hr, he]
  simp [WRes.ok, hmark, State.afterWrite, hnode, hwarm]

theorem State.countBap_ok_get (s : State) (via : Path) {k : Nat} (hk : k ≠ Od.BAP_RX_OK) :
    (s.countBap via Ab.OK).get k = s.get k := by
  rw [State.countBap_ok]
  cases via
  case bap => exact s.get_inc_other hk
  all_goals rfl

theorem State.countBap_ok_serving (s : State) (via : Path) : (s.countBap via Ab.OK).serving = s.serving := by
  rw [State.countBap_ok]
  cases via <;> rfl

/-! ## ENGINE_RESET -/

/-- The row of ENGINE_RESET (R108). -/
def engineResetRow : Row := ⟨2, 2, .u8, .wo, 0, .never, .upTo 0 5⟩

theorem lookup_engineReset : lookup (Od.ENGINE_RESET / 256) (Od.ENGINE_RESET % 256) = .ok engineResetRow := rfl

theorem State.writeEffect_engineReset (s : State) (via : Path) (v : Nat) :
    s.writeEffect via Od.ENGINE_RESET v = s.wrEngineReset v := rfl

theorem State.engineCode_ne_auth (s : State) (e : Nat) : s.engineCode e ≠ Ab.AUTH := by
  unfold State.engineCode
  split
  · decide
  · split <;> decide

theorem State.wrEngineReset_unpowered (s : State) {v : Nat} (hv : v ≤ 5) (h : s.engineCode v ≠ Ab.OK) :
    s.wrEngineReset v = .no s (s.engineCode v) := by
  unfold State.wrEngineReset
  simp [Nat.not_lt.mpr hv, h]

theorem State.wrEngineReset_display (s : State) (h : s.engineCode 4 = Ab.OK) (hpipe : ∃ p, p < 4 ∧ s.pipeOn p = true) :
    s.wrEngineReset 4 = .no s Ab.BUSY := by
  have hany : (List.range 4).any s.pipeOn = true := by
    obtain ⟨p, hp, hon⟩ := hpipe
    exact List.any_eq_true.mpr ⟨p, List.mem_range.mpr hp, hon⟩
  unfold State.wrEngineReset
  simp [h, hany]

theorem State.wrEngineReset_neural (s : State) (h : s.engineCode 1 = Ab.OK) : s.wrEngineReset 1 = .ok (s.engineReset 1) := by
  unfold State.wrEngineReset
  simp [h]

/-- An Engine object of the engine reads its default after the engine's reset (R365). -/
theorem State.get_engineReset (s : State) {e k : Nat} {r : Row} (hr : rowOfKey k = some r) (he : engineObject e k r = true)
    (hk : k < 0x900000) : (s.engineReset e).get k = constDefault k := by
  have hfree : ¬ MemKey (fun _ => True) k := fun h => absurd h.ge (Nat.not_le.mpr hk)
  exact (memClosed_get k (constDefault k) hfree).post _ _ _ _ _ (State.get_clearObjects _ hr he)

/-- The reset of the neural engine leaves no serving session's sequences and pages (R233). -/
theorem State.engineReset_neural_serving (s : State) : (s.engineReset 1).serving = [] := by
  unfold State.engineReset State.post
  obtain ⟨od, ev, bap, out, h⟩ := State.postN_eq _ 1 1 1 0x2600 1 0
  rw [h]
  rfl

/-- The row of SV_ENABLE (R242). -/
def svEnableRow : Row := ⟨1, 1, .bool, .rw, 0, .engine, .all⟩

theorem svEnable_engineObject : ∀ k < 8, rowOfKey (Od.SV_ENABLE k) = some svEnableRow ∧
    engineObject 1 (Od.SV_ENABLE k) svEnableRow = true ∧ constDefault (Od.SV_ENABLE k) = 0 ∧
    Od.SV_ENABLE k < 0x900000 ∧ Od.SV_ENABLE k ≠ Od.BAP_RX_OK := by
  decide

theorem State.engineReset_neural_svEnable (s : State) {k : Nat} (hk : k < 8) : (s.engineReset 1).get (Od.SV_ENABLE k) = 0 := by
  obtain ⟨hrow, hobj, hdflt, hlow, -⟩ := svEnable_engineObject k hk
  rw [s.get_engineReset hrow hobj hlow, hdflt]

/-! ## CLIENT_RESET -/

/-- The row of CLIENT_RESET (R108). -/
def clientResetRow : Row := ⟨3, 3, .u8, .wo, 0, .never, .upTo 1 63⟩

theorem lookup_clientReset : lookup (Od.CLIENT_RESET / 256) (Od.CLIENT_RESET % 256) = .ok clientResetRow := rfl

theorem State.valueCode_clientReset (s : State) {v : Nat} (hv : v = 0 ∨ 63 < v) :
    s.valueCode clientResetRow Od.CLIENT_RESET 2 1 v = Ab.RANGE := by
  have hrange : Rng.ok (.upTo 1 63) v = false := by
    simp only [Rng.ok, Bool.and_eq_false_iff, decide_eq_false_iff_not]
    omega
  have hty : (2 != Ty.u8.code || Ty.u8 == Ty.dom) = false := by decide
  unfold State.valueCode
  simp [clientResetRow, Rng.filter, hrange, hty]

theorem State.locate_clientReset {s : State} {via : Path} (hmay : s.mayAccess via Od.CLIENT_RESET true false = true)
    (hdom : s.domCode (domainOf (Od.CLIENT_RESET / 256) (Od.CLIENT_RESET % 256)) = Ab.OK) :
    s.locate via (Od.CLIENT_RESET / 256) (Od.CLIENT_RESET % 256) true false = .ok clientResetRow := by
  have hkey : Od.CLIENT_RESET / 256 * 256 + Od.CLIENT_RESET % 256 = Od.CLIENT_RESET := rfl
  unfold State.locate
  simp [lookup_clientReset, hkey, hmay, hdom]

/-! ## The obligation -/

/-- Settles O17: WRST_N by the phase it finds, PORST_N by the power-on reset; the refused writes by the check that stops them,
and the reset of the neural engine by what it leaves in the session objects. -/
theorem resetRequestsInteract : Obligations.ResetRequestsInteract := by
  intro s dt w
  refine ⟨exec_wrstNFall_resting dt, ?_, ?_, ?_, ?_, ?_, ?_⟩
  · intro hphase
    exact ⟨_, exec_porstNFall_powered dt (by simp [hphase]), State.powerOnReset_phase _, State.powerOnReset_resetCause _⟩
  · intro hup
    refine ⟨_, exec_wrstNFall_up dt hup, fun d => State.warmReset_pd_gated _ _ _, ?_, ?_⟩ <;> rw [State.warmReset_pwr] <;> rfl
  · intro hadm hv hcode
    exact congrArg Host.Outcome.next (State.objWrite_no hadm lookup_engineReset (State.wrEngineReset_unpowered _ hv hcode) hcode
      (s.engineCode_ne_auth _))
  · intro hadm hv hcode hpipe
    refine congrArg Host.Outcome.next (State.objWrite_no hadm lookup_engineReset ?_ (by decide) (by decide))
    rw [hv]
    exact State.wrEngineReset_display _ hcode hpipe
  · intro hpath hmay hdom hty hsize hv
    have hrange := (s.advance dt).valueCode_clientReset hv
    rw [← hty, ← hsize] at hrange
    exact congrArg Host.Outcome.next (State.objWrite_valueCode hpath (State.locate_clientReset hmay hdom) hrange (by decide)
      (by decide))
  · intro hadm hv hcode
    have hwrite := State.objWrite_ok hadm lookup_engineReset (by decide) (by decide) (by decide)
      (u := ({ s.advance dt with out := [] } : State).engineReset 1) (by rw [hv]; exact State.wrEngineReset_neural _ hcode)
    refine ⟨_, congrArg Host.Outcome.next hwrite, ⟨0, by simp⟩, ?_, fun k hk => ?_⟩
    · exact (State.countBap_ok_serving ..).trans (State.engineReset_neural_serving _)
    · obtain ⟨-, -, -, -, hcount⟩ := svEnable_engineObject k hk
      exact (State.countBap_ok_get _ _ hcount).trans (State.engineReset_neural_svEnable _ hk)

end Sys2Proof.Machine
